-- ==== Sys2Proof/Word.lean ====
section
/-! DEFINITION. The bit widths of the block (spec/00_scope.md R9, spec/30_encoding.md R100). -/

namespace Sys2Proof

/-- A shadow value, a mask operand, an index operand: unsigned, 32 bits (R9). -/
abbrev Word := BitVec 32

/-- One byte on the serial bus (R60). -/
abbrev Byte := BitVec 8

/-- The opcode field `cmd[39:32]` of a command word (R100). -/
abbrev Opcode := BitVec 8

/-- A command word, presented whole on a port (R100). -/
abbrev Command := BitVec 40

end Sys2Proof
end

