-- ==== Sys2Proof/Syntax.lean ====
section
/-! DEFINITION. The 25 operations of the block (spec/30_encoding.md R103), one constructor per row of
spec/opcode_table.json. An operand is the decoded 32-bit field of R102; format N has none. -/

namespace Sys2Proof

/-- One legal operation (R103). -/
inductive Instr where
  | setChannel (i : Word)
  | clearChannel (i : Word)
  | toggleChannel (i : Word)
  | setChannels (bits : Word)
  | clearChannels (bits : Word)
  | toggleChannels (bits : Word)
  | setAllOn
  | setAllOff
  | toggleAll
  | setExclusiveOn (i : Word)
  | setExclusiveOff (i : Word)
  | setMaskExact (bits : Word)
  | setMaskComplement (bits : Word)
  | setChannelMapTrue (i : Word)
  | setChannelMapFalse (i : Word)
  | setAllChannelsMapTrue
  | setAllChannelsMapFalse
  | setChannelBooleanAnd (i : Word)
  | setChannelBooleanOr (i : Word)
  | setAllChannelsBooleanAnd
  | setAllChannelsBooleanOr
  | getChannelsOn
  | getChannelCount
  | setup (n : Word)
  | reset
  deriving DecidableEq, Repr

/-- The operand formats of R102: none, channel index, channel mask, chip count. -/
inductive Format where
  | none
  | index
  | mask
  | count
  deriving DecidableEq, Repr

/-- The format column of R103. -/
def Instr.format : Instr → Format
  | .setChannel _ | .clearChannel _ | .toggleChannel _ => .index
  | .setChannels _ | .clearChannels _ | .toggleChannels _ => .mask
  | .setAllOn | .setAllOff | .toggleAll => .none
  | .setExclusiveOn _ | .setExclusiveOff _ => .index
  | .setMaskExact _ | .setMaskComplement _ => .mask
  | .setChannelMapTrue _ | .setChannelMapFalse _ => .index
  | .setAllChannelsMapTrue | .setAllChannelsMapFalse => .none
  | .setChannelBooleanAnd _ | .setChannelBooleanOr _ => .index
  | .setAllChannelsBooleanAnd | .setAllChannelsBooleanOr => .none
  | .getChannelsOn | .getChannelCount => .none
  | .setup _ => .count
  | .reset => .none

/-- The pseudo-instruction `set_channel_on` (R107). -/
abbrev Instr.setChannelOn (i : Word) : Instr := .setChannel i

end Sys2Proof
end

