-- ==== Sys2Proof/WellFormed.lean ====
section
/-! DEFINITION. Which command words and operands are well formed. Every term of `Instr` is: its operand is a 32-bit value
and R102 accepts each. What can be ill formed is an opcode (spec/30_encoding.md R105) and an operand written in the
assembler's syntax (R106). -/

namespace Sys2Proof

/-- The reserved opcodes, as the list of ranges R105 gives. `decode` does not use it: it follows R103. -/
def WellFormed.reservedRanges : List (Opcode × Opcode) :=
  [(0x00, 0x0F), (0x1D, 0x1F), (0x22, 0x25), (0x28, 0x2F), (0x32, 0x35), (0x38, 0x3F), (0x42, 0x4F), (0x52, 0xFF)]

/-- An opcode is legal when R105 does not reserve it. -/
def WellFormed.opcode (op : Opcode) : Bool :=
  WellFormed.reservedRanges.all fun r => op < r.1 || r.2 < op

/-- A command word is well formed when its opcode field `cmd[39:32]` is legal (R100, R105). -/
def WellFormed.command (w : Command) : Bool :=
  WellFormed.opcode (w.extractLsb' 32 8)

/-- An operand of the assembler's syntax is an unsigned integer below 2^32 (R106). -/
def WellFormed.operand (n : Nat) : Bool :=
  n < 2 ^ 32

end Sys2Proof
end

