-- ==== Sys2Proof/Decode.lean ====
section
/-! DEFINITION. Decoding and encoding of the 40-bit command word (spec/30_encoding.md R100 to R105, R108). -/

namespace Sys2Proof

/-- The verdict of decoding (R104): a row of R103, or `reserved` with the opcode that names no row. -/
inductive Verdict where
  | legal (i : Instr)
  | reserved (op : Opcode)
  deriving DecidableEq, Repr

/-- `cmd[39:32]` (R100). -/
def opcodeField (w : Command) : Opcode := w.extractLsb' 32 8

/-- `cmd[31:0]` (R100). -/
def operandField (w : Command) : Word := w.extractLsb' 0 32

/-- The operation of a command word: exact match of the opcode against R103, total (R104). -/
def decode (w : Command) : Verdict :=
  let opd := operandField w
  match (opcodeField w).toNat with
  | 0x10 => .legal (.setChannel opd)
  | 0x11 => .legal (.clearChannel opd)
  | 0x12 => .legal (.toggleChannel opd)
  | 0x13 => .legal (.setChannels opd)
  | 0x14 => .legal (.clearChannels opd)
  | 0x15 => .legal (.toggleChannels opd)
  | 0x16 => .legal .setAllOn
  | 0x17 => .legal .setAllOff
  | 0x18 => .legal .toggleAll
  | 0x19 => .legal (.setExclusiveOn opd)
  | 0x1A => .legal (.setExclusiveOff opd)
  | 0x1B => .legal (.setMaskExact opd)
  | 0x1C => .legal (.setMaskComplement opd)
  | 0x20 => .legal (.setChannelMapTrue opd)
  | 0x21 => .legal (.setChannelMapFalse opd)
  | 0x26 => .legal .setAllChannelsMapTrue
  | 0x27 => .legal .setAllChannelsMapFalse
  | 0x30 => .legal (.setChannelBooleanAnd opd)
  | 0x31 => .legal (.setChannelBooleanOr opd)
  | 0x36 => .legal .setAllChannelsBooleanAnd
  | 0x37 => .legal .setAllChannelsBooleanOr
  | 0x40 => .legal .getChannelsOn
  | 0x41 => .legal .getChannelCount
  | 0x50 => .legal (.setup opd)
  | 0x51 => .legal .reset
  | _ => .reserved (opcodeField w)

/-- The opcode column of R103. -/
def Instr.opcode : Instr → Opcode
  | .setChannel _ => 0x10
  | .clearChannel _ => 0x11
  | .toggleChannel _ => 0x12
  | .setChannels _ => 0x13
  | .clearChannels _ => 0x14
  | .toggleChannels _ => 0x15
  | .setAllOn => 0x16
  | .setAllOff => 0x17
  | .toggleAll => 0x18
  | .setExclusiveOn _ => 0x19
  | .setExclusiveOff _ => 0x1A
  | .setMaskExact _ => 0x1B
  | .setMaskComplement _ => 0x1C
  | .setChannelMapTrue _ => 0x20
  | .setChannelMapFalse _ => 0x21
  | .setAllChannelsMapTrue => 0x26
  | .setAllChannelsMapFalse => 0x27
  | .setChannelBooleanAnd _ => 0x30
  | .setChannelBooleanOr _ => 0x31
  | .setAllChannelsBooleanAnd => 0x36
  | .setAllChannelsBooleanOr => 0x37
  | .getChannelsOn => 0x40
  | .getChannelCount => 0x41
  | .setup _ => 0x50
  | .reset => 0x51

/-- The operand an operation is encoded with; 0 for format N (R106: "with `opd = 0` for format N"). -/
def Instr.operand : Instr → Word
  | .setChannel i | .clearChannel i | .toggleChannel i => i
  | .setChannels bits | .clearChannels bits | .toggleChannels bits => bits
  | .setAllOn | .setAllOff | .toggleAll => 0
  | .setExclusiveOn i | .setExclusiveOff i => i
  | .setMaskExact bits | .setMaskComplement bits => bits
  | .setChannelMapTrue i | .setChannelMapFalse i => i
  | .setAllChannelsMapTrue | .setAllChannelsMapFalse => 0
  | .setChannelBooleanAnd i | .setChannelBooleanOr i => i
  | .setAllChannelsBooleanAnd | .setAllChannelsBooleanOr => 0
  | .getChannelsOn | .getChannelCount => 0
  | .setup n => n
  | .reset => 0

/-- The command word `{op[7:0], opd[31:0]}` of an operation (R100, R106). -/
def encode (i : Instr) : Command := i.opcode ++ i.operand

/-- What the decoder reads from a table row's number `w`: the table numbers the 40-bit command word as R100 does, bit 0
least significant. A number that does not fit the row's bits, or a row longer than a command, is no command word. -/
def decodeTableWord (nbits w : Nat) : Option Instr :=
  if nbits ≤ 40 ∧ w < 2 ^ nbits then
    match decode (BitVec.ofNat 40 w) with
    | .legal i => some i
    | .reserved _ => none
  else none

end Sys2Proof
end

