-- ==== Sys2Proof/Config.lean ====
section
/-! DEFINITION. The block's parameters (spec/00_scope.md R7): those the spec fixes are constants, those it leaves
OPEN or selectable are the record `Params`, which `State` carries and no operation writes (spec/10_state.md R33). The two
free values the spec leaves without a value at all are opaque. -/

namespace Sys2Proof

/-- `ATOMIC_SCOPE`, the extent of the arbiter's exclusive section (R7, R83, R84). -/
inductive AtomicScope where
  | wholeOp
  | shadowOnly
  deriving DecidableEq, Repr

/-- The parameters that differ between instances of the block (R7). The spec calls `HAS_RST`, `RECONFIG_EACH_TXN` and
`AND_BIT` OPEN ("the model takes it as an argument"), and lets a model select `ATOMIC_SCOPE`. See log entry 1. -/
structure Params where
  hasRst          : Bool
  reconfigEachTxn : Bool
  andBit          : Bool
  atomicScope     : AtomicScope
  deriving DecidableEq, Repr

/-- The parameters spec/95_test_vectors.md uses "unless a vector says otherwise". DESIGN CHOICE: `State.reset` takes
them (log entry 1); `State.powerOn` takes any. -/
def Params.conventional : Params :=
  { hasRst := false, reconfigEachTxn := false, andBit := true, atomicScope := .wholeOp }

/-- The bit order on the wire (R7, R54). -/
inductive BitOrder where
  | msbFirst
  | lsbFirst
  deriving DecidableEq, Repr

/-- Clock polarity and phase (R7): mode 1 is clock idle low, data sampled on the trailing edge. -/
inductive SpiMode where
  | mode0
  | mode1
  | mode2
  | mode3
  deriving DecidableEq, Repr

/-- `MAX_CHIPS` (R7). -/
def Config.maxChips : Nat := 4

/-- `MAP_TRUE_BIT` (R7, D22): the bit value that means "mapped". -/
def Config.mapTrueBit : Bool := true

/-- `CS_ACTIVE_LEVEL` (R7): the level that asserts chip-select. -/
def Config.csActive : Bool := false

/-- `RST_ACTIVE_LEVEL` (R7, D17): the level that asserts the reset line. -/
def Config.rstActive : Bool := false

/-- `RESET_PULSE_MS` (R7, D18). -/
def Config.resetPulseMs : Nat := 200

/-- `SPI_CLOCK_HZ` (R7, D19). -/
def Config.spiClockHz : Nat := 4000000

/-- `SPI_BIT_ORDER` (R7, R54). -/
def Config.spiBitOrder : BitOrder := .msbFirst

/-- `SPI_MODE` (R7, R54). -/
def Config.spiMode : SpiMode := .mode1

/-- Free value: does the arbiter start the IRQ port now, at its `n`-th free choice? The spec leaves the order of
requests at idle and the preemption points used open (R81, R84, D25). Log entry 4. -/
opaque Config.freeChoice : Nat → Bool

/-- Free value: the Diagnosis selector code, unknown by C1 of spec/90_conflicts.md. Nothing emits it. Log entry 16. -/
opaque Config.diagnosisCode : BitVec 2

end Sys2Proof
end

