-- ==== Sys2Proof/Machine/State.lean ====
section
/-! DEFINITION. The state of the block as plain data (spec/10_state.md), with the recorded outputs and the callers'
commands that the model keeps beside it. -/

namespace Sys2Proof.Machine

/-- Why the machine would stop. No rule of the spec stops it: the spec's faults are records in `State.faults` and the
machine goes on (spec/60_exceptions.md R220), so there is no constructor. Log entry 14. -/
inductive Fault : Type
  deriving DecidableEq, Repr

/-- Why an instruction would have no meaning. -/
inductive Refusal : Type where
  /-- Raised by an arm of `exec` whose instruction has no meaning yet (safe: the model stops); no arm raises it now. -/
  | notModelled (mnemonic : String)
  deriving DecidableEq, Repr

/-- The kinds of shadow register: CTRL, MAP, BOOL (R11, R20). -/
inductive Kind where
  | ctrl
  | map
  | bool
  deriving DecidableEq, Repr

/-- The requester ports (R80). -/
inductive Port where
  | main
  | irq
  deriving DecidableEq, Repr

/-- The two lines the block drives (R7: opaque labels). -/
inductive Pin where
  | cs
  | rst
  deriving DecidableEq, Repr

/-- The level on a line (R28): `z` not yet an output, else driven to 0 (`false`) or 1 (`true`). -/
inductive PinLevel where
  | z
  | drive (level : Bool)
  deriving DecidableEq, Repr

/-- The alphabet of interface events (R60). -/
inductive Event where
  | pinOut (pin : Pin)
  | pin (pin : Pin) (level : Bool)
  | busBegin
  | txnBegin (clockHz : Nat) (order : BitOrder) (mode : SpiMode)
  | txnEnd
  | xfer (b : Byte)
  | delay (ms : Nat)
  deriving DecidableEq, Repr

/-- The serializer's position (R29): which event of a frame comes next. -/
inductive SerPos where
  | idle
  | pre
  | cslo
  | cmd (ic : Nat)
  | data (ic : Nat)
  | cshi
  | post
  deriving DecidableEq, Repr

/-- The fault codes (R220). -/
inductive FaultCode where
  | illegalOpcode
  | notInitialized
  | portNotPermitted
  deriving DecidableEq, Repr

/-- One fault record (R32). -/
structure FaultRecord where
  code : FaultCode
  port : Port
  cmd  : Command
  deriving DecidableEq, Repr

/-- The suspended MAIN operation (R30, R86). The rest of the operation is its remaining frame events, which `ser` gives,
and its completion. `cmd` keeps its command word (log entry 11). -/
structure MainCtx where
  ser     : SerPos
  serKind : Kind
  serVal  : Word
  cmd     : Command
  deriving DecidableEq, Repr

/-- One completion seen by a port: `Respond(v)` with a value, `Complete()` and a fault without one (R12, R220). -/
structure Answer where
  port  : Port
  value : Option Word
  deriving DecidableEq, Repr

/-- Everything the spec gives the block, and the model's own host-interface fields (last six before `trace`'s outputs).

* `params`: the configuration, which no operation writes (R33).
* `ctrl`, `inputMap`, `boolOp`: `S[CTRL]`, `S[MAP]`, `S[BOOL]` (R20).
* `cc`, `initialized`: R25, R26. `csN`, `rstN`: R28.
* `ser`, `serKind`, `serVal`: the serializer (R29).
* `owner` (`none` is NONE), `cmd`, `mainCtx`, `pendMain`, `pendIrq`: the arbiter (R30) and the word in execution (R32).
* `inMain`, `inIrq`: the model's own; what each caller has still to present (log entry 3).
* `sched`, `drawn`: the model's own; the arbiter's free choices (log entry 4).
* `faults`: R32, a set kept as a list without repeats (log entry 8).
* `answers`, `trace`: the outputs, oldest first (R12, R60; log entry 7). -/
structure State where
  params      : Params
  ctrl        : Word
  inputMap    : Word
  boolOp      : Word
  cc          : BitVec 3
  initialized : Bool
  csN         : PinLevel
  rstN        : PinLevel
  ser         : SerPos
  serKind     : Kind
  serVal      : Word
  owner       : Option Port
  cmd         : Command
  mainCtx     : Option MainCtx
  pendMain    : Option Command
  pendIrq     : Option Command
  inMain      : List Command
  inIrq       : List Command
  sched       : List Bool
  drawn       : Nat
  faults      : List FaultRecord
  answers     : List Answer
  trace       : List Event
  deriving DecidableEq, Repr

/-- The state at power-on of an instance with parameters `p` (R35, R250). DESIGN CHOICE where R35 gives no value: `cc` is 1
(log entry 9); `serKind`, `serVal` and `cmd` are CTRL, 0 and 0 (log entry 10). -/
def State.powerOn (p : Params) : State :=
  { params := p
    ctrl := 0, inputMap := 0, boolOp := 0
    cc := 1, initialized := false
    csN := .z, rstN := .z
    ser := .idle, serKind := .ctrl, serVal := 0
    owner := none, cmd := 0, mainCtx := none, pendMain := none, pendIrq := none
    inMain := [], inIrq := [], sched := [], drawn := 0
    faults := [], answers := [], trace := [] }

/-- The machine right after reset: power-on (R250) with the conventional parameters (log entry 1). -/
def State.reset : State := .powerOn .conventional

end Sys2Proof.Machine
end

