-- ==== Sys2Proof/Machine/Operands.lean ====
section
/-! DEFINITION. The operand forms (spec/30_encoding.md R102) and the quantities derived from the chip count
(spec/00_scope.md R8): every computation an operation makes on 32-bit values. -/

namespace Sys2Proof.Machine

/-- `channel_count = 8 * cc`, computed exactly (R8, R10). -/
def channelCount (cc : BitVec 3) : Nat := 8 * cc.toNat

/-- `all_mask(cc) = 2^(8*cc) - 1` as a 32-bit value, computed exactly before truncation (R8, R10, D9). -/
def allMask (cc : BitVec 3) : Word := BitVec.ofNat 32 (2 ^ channelCount cc - 1)

/-- `AND_ALL(cc)` (R8). -/
def andAll (p : Params) (cc : BitVec 3) : Word := if p.andBit then allMask cc else 0

/-- `OR_ALL(cc)` (R8). -/
def orAll (p : Params) (cc : BitVec 3) : Word := allMask cc ^^^ andAll p cc

/-- Format I: `InRange(i) = (i < channel_count)`, unsigned and never reduced (R13, R102). -/
def inRange (cc : BitVec 3) (i : Word) : Bool := i.toNat < channelCount cc

/-- `1 << i` (R10; used only for an index in range, so i <= 31). -/
def channelBit (i : Word) : Word := 1#32 <<< i.toNat

/-- `b << i` for a one-bit value b: the `A << i` and `O << i` of R176 and R177. -/
def bitAt (b : Bool) (i : Word) : Word := if b then channelBit i else 0

/-- Format C: the chip count `setup` takes, n when 1 <= n <= MAX_CHIPS and 1 otherwise (R201). -/
def clampChips (n : Word) : BitVec 3 :=
  if 1 ≤ n.toNat ∧ n.toNat ≤ Config.maxChips then BitVec.ofNat 3 n.toNat else 1

/-- `v[8*ic+7 : 8*ic]`, the register image of chip `ic` (R21, R118). -/
def chipByte (v : Word) (ic : Nat) : Byte := v.extractLsb' (8 * ic) 8

/-- `S[k]` (R11). -/
def State.shadow (s : State) : Kind → Word
  | .ctrl => s.ctrl
  | .map => s.inputMap
  | .bool => s.boolOp

/-- The meaning of a set Control bit: channel i is on (R22). -/
def State.channelOn (s : State) (i : Nat) : Bool := s.ctrl.getLsbD i

/-- Channel i's input mapping is "true" (R22). -/
def State.channelMapped (s : State) (i : Nat) : Bool := s.inputMap.getLsbD i == Config.mapTrueBit

/-- Channel i's boolean combination is "AND" (R22, R175). -/
def State.channelAnds (s : State) (i : Nat) : Bool := s.boolOp.getLsbD i == s.params.andBit

end Sys2Proof.Machine
end

