-- ==== Sys2Proof/Machine/Wire.lean ====
section
/-! DEFINITION. The command byte on the wire (spec/30_encoding.md, Part B). -/

namespace Sys2Proof.Machine

/-- The seven RegisterKinds of the device (R115, R16). The block writes three of them; the other four are reserved. -/
inductive DevReg where
  | inputMap
  | booleanOp
  | overloadBehavior
  | overtempBehavior
  | slewRate
  | outputState
  | control
  deriving DecidableEq, Repr

/-- The fixed 3-bit address of each RegisterKind (R115). Address 0b000 is not named. -/
def DevReg.address : DevReg → BitVec 3
  | .inputMap => 0b001
  | .booleanOp => 0b010
  | .overloadBehavior => 0b011
  | .overtempBehavior => 0b100
  | .slewRate => 0b101
  | .outputState => 0b110
  | .control => 0b111

/-- The device register each shadow mirrors (R20). -/
def Kind.devReg : Kind → DevReg
  | .ctrl => .control
  | .map => .inputMap
  | .bool => .booleanOp

/-- `Addr(k)` (R13, R115). -/
def addr (k : Kind) : BitVec 3 := k.devReg.address

/-- The command selectors (R116). -/
inductive Selector where
  | write
  | read
  | reset
  | diagnosis
  deriving DecidableEq, Repr

/-- The 2-bit code of a selector (R116). 0b11 means Write; the Diagnosis code is unknown (C1 of spec/90_conflicts.md,
log entry 16). Only `write` is ever emitted. -/
def Selector.code : Selector → BitVec 2
  | .write => 0b11
  | .read => 0b01
  | .reset => 0b10
  | .diagnosis => Config.diagnosisCode

/-- `WireCmd(sel, a) = {sel[1:0], 0b000, a[2:0]}` (R13, R116). -/
def wireCmd (sel : BitVec 2) (a : BitVec 3) : Byte := sel ++ 0b000#3 ++ a

/-- The command byte of the frames for kind `k`: `WireCmd(0b11, Addr(k))` (R65, R117). -/
def writeCmd (k : Kind) : Byte := wireCmd Selector.write.code (addr k)

end Sys2Proof.Machine
end

