-- ==== Sys2Proof/Machine/Ops.lean ====
section
/-! DEFINITION. The named operations on the state: the interface primitives of spec/00_scope.md R12, the serializer of
spec/20_memory.md R65, completion, the model faults of spec/60_exceptions.md R220, and the entry to and return from a
preemption (spec/20_memory.md R86). -/

namespace Sys2Proof.Machine

/-- `Emit(e)`: append e to the output trace (R12, R60). -/
def emit (e : Event) (s : State) : State := { s with trace := s.trace ++ [e] }

/-- `S[k] <- v` (R11). -/
def setShadow (k : Kind) (v : Word) (s : State) : State :=
  match k with
  | .ctrl => { s with ctrl := v }
  | .map => { s with inputMap := v }
  | .bool => { s with boolOp := v }

/-- Configure a line as an output (R60, R200). -/
def openPin (p : Pin) (s : State) : State := emit (.pinOut p) s

/-- Drive chip-select: the level and its PIN event (R28, R60). -/
def driveCs (level : Bool) (s : State) : State :=
  emit (.pin .cs level) { s with csN := .drive level }

/-- Drive the reset line: the level and its PIN event (R28, R60). -/
def driveRst (level : Bool) (s : State) : State :=
  emit (.pin .rst level) { s with rstN := .drive level }

/-- The `TXN_BEGIN` event with the bus settings of R7 (R60). -/
def txnBeginEvent : Event := .txnBegin Config.spiClockHz Config.spiBitOrder Config.spiMode

/-- The port whose operation is executing (R30). `step` runs an operation only for an owner; with none, the model says
MAIN (log entry 12). -/
def State.requester (s : State) : Port := s.owner.getD .main

/-! The serializer, one event at a time (R29, R65). -/

/-- Where the chip loop stands with `n` chips still to send: at the next chip's command byte, or past the loop. -/
def chipsLeft : Nat → SerPos
  | 0 => .cshi
  | ic + 1 => .cmd ic

/-- The first position of a frame (R29: `PRE` only when `RECONFIG_EACH_TXN`). -/
def frameStart (p : Params) : SerPos := if p.reconfigEachTxn then .pre else .cslo

/-- Start a frame: capture its kind and value (`ser_kind <- k ; ser_val <- v`, R65) and stand before its first event. The
requester owns the block while the frame is under way. -/
def beginFrame (k : Kind) (v : Word) (s : State) : State :=
  { s with serKind := k, serVal := v, ser := frameStart s.params, owner := some s.requester }

/-- Perform the frame event the position names and advance (R29, R65). At `IDLE` there is none. -/
def serStep (s : State) : State :=
  match s.ser with
  | .idle => s
  | .pre => { emit txnBeginEvent s with ser := .cslo }
  | .cslo => { driveCs Config.csActive s with ser := chipsLeft s.cc.toNat }
  | .cmd ic => { emit (.xfer (writeCmd s.serKind)) s with ser := .data ic }
  | .data ic => { emit (.xfer (chipByte s.serVal ic)) s with ser := chipsLeft ic }
  | .cshi => { driveCs (!Config.csActive) s with ser := if s.params.reconfigEachTxn then .post else .idle }
  | .post => { emit .txnEnd s with ser := .idle }

/-! The serializer as one uninterrupted operation (R65). -/

/-- `for ic = n-1 downto 0`: the command byte and the data byte of each chip (R65). -/
def sendChips (k : Kind) (v : Word) : Nat → State → State
  | 0, s => s
  | ic + 1, s => sendChips k v ic (emit (.xfer (chipByte v ic)) (emit (.xfer (writeCmd k)) s))

/-- `ChainWrite(k, v)` (R65). -/
def chainWrite (k : Kind) (v : Word) (s : State) : State :=
  let s := { s with serKind := k, serVal := v }
  let s := if s.params.reconfigEachTxn then emit txnBeginEvent s else s
  let s := driveCs Config.csActive s
  let s := sendChips k v s.cc.toNat s
  let s := driveCs (!Config.csActive) s
  let s := if s.params.reconfigEachTxn then emit .txnEnd s else s
  { s with ser := .idle }

/-! Completion, faults, preemption. -/

/-- Is the operation in execution one that interrupted MAIN (R86)? Then this is MAIN's saved context. -/
def State.interrupted (s : State) : Option MainCtx :=
  if s.owner = some .irq then s.mainCtx else none

/-- Give the block back when the operation in execution is over. If it interrupted MAIN, restore the serializer and resume
MAIN; `cs_n` and the shadows are not restored (R86). Otherwise no port owns the block. -/
def release (s : State) : State :=
  match s.interrupted with
  | some c =>
    { s with ser := c.ser, serKind := c.serKind, serVal := c.serVal, cmd := c.cmd, owner := some .main, mainCtx := none }
  | none => { s with owner := none }

/-- Complete the operation in execution towards its port, with a value or without (R12), and release the block. -/
def finish (v : Option Word) (s : State) : State :=
  release { s with answers := s.answers ++ [⟨s.requester, v⟩] }

/-- `Complete()` (R12). -/
def complete (s : State) : State := finish none s

/-- `Respond(v)` (R12). -/
def respond (v : Word) (s : State) : State := finish (some v) s

/-- Add a record to the set `faults` (R32). -/
def recordFault (r : FaultRecord) (s : State) : State :=
  if r ∈ s.faults then s else { s with faults := s.faults ++ [r] }

/-- `raise Fault(code)`: record (code, port, cmd), write no other state, emit nothing, return no value and complete
(R12, R220). This is the block's only way to take an exception; control goes nowhere (R232). -/
def raiseFault (code : FaultCode) (s : State) : State :=
  complete (recordFault ⟨code, s.requester, s.cmd⟩ s)

/-- The entry half of R86: save the suspended MAIN operation. `release` is its other half. -/
def suspendMain (s : State) : State :=
  { s with mainCtx := some ⟨s.ser, s.serKind, s.serVal, s.cmd⟩ }

/-! `Update` (R13). -/

/-- Does the operation in execution hold the arbiter for its whole frame? Always under WHOLE_OP (R83); under SHADOW_ONLY
only for the IRQ port, whose operations are never preempted (R84, R85). -/
def State.wholeFrame (s : State) : Bool :=
  s.params.atomicScope == .wholeOp || s.requester == .irq

/-- `Update(k, f)` (R13): the atomic read-modify-write of `S[k]`, masked with `all_mask(cc)`, then its frame with the new
value and completion. When the operation holds the arbiter all of it happens here. When MAIN runs under SHADOW_ONLY the
frame starts here and stands at preemption point p0 (R84); the arbiter performs its events. -/
def update (k : Kind) (f : Word → Word) (s : State) : State :=
  let v := f (s.shadow k) &&& allMask s.cc
  let s := setShadow k v s
  if s.wholeFrame then complete (chainWrite k v s) else beginFrame k v s

end Sys2Proof.Machine
end

