-- ==== Sys2Proof/Machine/Flags.lean ====
section
/-! DEFINITION. The block's only status flag, `initialized` (spec/10_state.md R26), and the checks an operation begins with
(spec/40_control_ops.md R130, spec/60_exceptions.md R222 to R225). The block has no condition codes, so no operation
computes any. -/

namespace Sys2Proof.Machine

/-- The answer of a step. -/
abbrev Answered := Host.Outcome State Fault Refusal

/-- Run an operation that needs `initialized`; before `setup` it raises NOT_INITIALIZED (R222). -/
def whenInitialized (op : State → State) (s : State) : Answered :=
  .next (if s.initialized then op s else raiseFault .notInitialized s)

/-- Run an operation that only the MAIN port may present; on the IRQ port it raises PORT_NOT_PERMITTED, ahead of any other
check (R223, R224). -/
def onMainOnly (op : State → Answered) (s : State) : Answered :=
  if s.requester = .irq then .next (raiseFault .portNotPermitted s) else op s

/-- A register operation of format M or N: the prologue, then `Update` (R130). -/
def registerOp (k : Kind) (f : Word → Word) (s : State) : Answered :=
  whenInitialized (update k f) s

/-- A register operation of format I: the prologue with its range check, then `Update` (R130). Out of range it completes
without any effect (R225). -/
def indexOp (k : Kind) (i : Word) (f : Word → Word) (s : State) : Answered :=
  whenInitialized (fun s => if inRange s.cc i then update k f s else complete s) s

end Sys2Proof.Machine
end

