-- ==== Sys2Proof/Machine/Control.lean ====
section
/-! DEFINITION. The thirteen Control register operations (spec/40_control_ops.md). -/

namespace Sys2Proof.Machine

/-- R131: turn channel i on. -/
def execSetChannel (i : Word) (s : State) : Answered :=
  indexOp .ctrl i (fun v => v ||| channelBit i) s

/-- R132: turn channel i off. -/
def execClearChannel (i : Word) (s : State) : Answered :=
  indexOp .ctrl i (fun v => v &&& ~~~channelBit i) s

/-- R133: invert channel i. -/
def execToggleChannel (i : Word) (s : State) : Answered :=
  indexOp .ctrl i (fun v => v ^^^ channelBit i) s

/-- R134: turn on every channel of the mask. -/
def execSetChannels (bits : Word) (s : State) : Answered :=
  registerOp .ctrl (fun v => v ||| bits) s

/-- R135: turn off every channel of the mask. -/
def execClearChannels (bits : Word) (s : State) : Answered :=
  registerOp .ctrl (fun v => v &&& ~~~bits) s

/-- R136: invert every channel of the mask. -/
def execToggleChannels (bits : Word) (s : State) : Answered :=
  registerOp .ctrl (fun v => v ^^^ bits) s

/-- R137: turn every channel of the chain on. -/
def execSetAllOn (s : State) : Answered :=
  registerOp .ctrl (fun _ => allMask s.cc) s

/-- R138: turn every channel off. -/
def execSetAllOff (s : State) : Answered :=
  registerOp .ctrl (fun _ => 0) s

/-- R139: invert every channel of the chain. -/
def execToggleAll (s : State) : Answered :=
  registerOp .ctrl (fun v => v ^^^ allMask s.cc) s

/-- R140: turn channel i on and every other channel off. -/
def execSetExclusiveOn (i : Word) (s : State) : Answered :=
  indexOp .ctrl i (fun _ => channelBit i) s

/-- R141: turn channel i off and every other channel of the chain on. -/
def execSetExclusiveOff (i : Word) (s : State) : Answered :=
  indexOp .ctrl i (fun _ => allMask s.cc &&& ~~~channelBit i) s

/-- R142: replace the Control shadow. -/
def execSetMaskExact (bits : Word) (s : State) : Answered :=
  registerOp .ctrl (fun _ => bits) s

/-- R143: replace the Control shadow with the complement; `update` masks it to the chain. -/
def execSetMaskComplement (bits : Word) (s : State) : Answered :=
  registerOp .ctrl (fun _ => ~~~bits) s

end Sys2Proof.Machine
end

