-- ==== Sys2Proof/Machine/Lifecycle.lean ====
section
/-! DEFINITION. The lifecycle operations (spec/43_lifecycle.md). -/

namespace Sys2Proof.Machine

/-- The part of `setup` before its frames: chip-select and, when there is one, the reset line become outputs at their
inactive levels, and the bus starts (R200, D15). -/
def openLines (s : State) : State :=
  let s := driveCs (!Config.csActive) (openPin .cs s)
  let s := if s.params.hasRst then driveRst (!Config.rstActive) (openPin .rst s) else s
  emit .busBegin s

/-- `S[k] <- v ; ChainWrite(k, S[k])`, as `setup` does for each register (R200). -/
def writeDefault (k : Kind) (v : Word) (s : State) : State :=
  chainWrite k v (setShadow k v s)

/-- R200: fix the chain length (R201) and drive all three device registers to their defaults, indivisibly under either
policy (R85). Legal in either state of the machine (R203); PORT_NOT_PERMITTED on the IRQ port (R223). -/
def execSetup (n : Word) (s : State) : Answered :=
  onMainOnly (fun s =>
    let s := { s with cc := clampChips n }
    let s := openLines s
    let s := writeDefault .map (allMask s.cc) s
    let s := writeDefault .bool (andAll s.params s.cc) s
    let s := writeDefault .ctrl 0 s
    .next (complete { s with initialized := true })) s

/-- Pulse the reset line (R205). -/
def pulseReset (s : State) : State :=
  driveRst (!Config.rstActive) (emit (.delay Config.resetPulseMs) (driveRst Config.rstActive s))

/-- R205: pulse the reset line and zero the Control shadow; nothing at all without a reset line (R207).
PORT_NOT_PERMITTED on the IRQ port comes before NOT_INITIALIZED (R224). -/
def execReset (s : State) : Answered :=
  onMainOnly (whenInitialized fun s =>
    if s.params.hasRst then complete (setShadow .ctrl 0 (pulseReset s)) else complete s) s

end Sys2Proof.Machine
end

