-- ==== Sys2Proof/Machine/MapBool.lean ====
section
/-! DEFINITION. The InputMap and BooleanOp register operations (spec/41_map_bool_ops.md). -/

namespace Sys2Proof.Machine

/-- R171: set channel i's input-map bit to true. -/
def execSetChannelMapTrue (i : Word) (s : State) : Answered :=
  indexOp .map i (fun v => v ||| channelBit i) s

/-- R172: set channel i's input-map bit to false. -/
def execSetChannelMapFalse (i : Word) (s : State) : Answered :=
  indexOp .map i (fun v => v &&& ~~~channelBit i) s

/-- R173: set every input-map bit of the chain to true. -/
def execSetAllChannelsMapTrue (s : State) : Answered :=
  registerOp .map (fun _ => allMask s.cc) s

/-- R174: set every input-map bit to false. -/
def execSetAllChannelsMapFalse (s : State) : Answered :=
  registerOp .map (fun _ => 0) s

/-- R176: set channel i's boolean combination to AND, `A = AND_BIT` (R175). -/
def execSetChannelBooleanAnd (i : Word) (s : State) : Answered :=
  indexOp .bool i (fun v => (v &&& ~~~channelBit i) ||| bitAt s.params.andBit i) s

/-- R177: set channel i's boolean combination to OR, `O = 1 - AND_BIT` (R175). -/
def execSetChannelBooleanOr (i : Word) (s : State) : Answered :=
  indexOp .bool i (fun v => (v &&& ~~~channelBit i) ||| bitAt (!s.params.andBit) i) s

/-- R178: set every channel of the chain to AND. -/
def execSetAllChannelsBooleanAnd (s : State) : Answered :=
  registerOp .bool (fun _ => andAll s.params s.cc) s

/-- R179: set every channel of the chain to OR. -/
def execSetAllChannelsBooleanOr (s : State) : Answered :=
  registerOp .bool (fun _ => orAll s.params s.cc) s

end Sys2Proof.Machine
end

