-- ==== Sys2Proof/Machine/Query.lean ====
section
/-! DEFINITION. The query operations (spec/42_query_ops.md). -/

namespace Sys2Proof.Machine

/-- R190: return the Control shadow. -/
def execGetChannelsOn (s : State) : Answered :=
  whenInitialized (fun s => respond s.ctrl s) s

/-- R191: return `8 * cc` as a 32-bit value. -/
def execGetChannelCount (s : State) : Answered :=
  whenInitialized (fun s => respond (BitVec.ofNat 32 (channelCount s.cc)) s) s

end Sys2Proof.Machine
end

