-- ==== Sys2Proof/Machine/Dispatch.lean ====
section
/-! DEFINITION. One arm per operation of R103: the meaning of each. -/

namespace Sys2Proof.Machine

def exec (i : Instr) (s : State) : Host.Outcome State Fault Refusal :=
  match i with
  -- Control register (spec/40_control_ops.md)
  | .setChannel c => Sys2Proof.Machine.execSetChannel c s
  | .clearChannel c => Sys2Proof.Machine.execClearChannel c s
  | .toggleChannel c => Sys2Proof.Machine.execToggleChannel c s
  | .setChannels bits => Sys2Proof.Machine.execSetChannels bits s
  | .clearChannels bits => Sys2Proof.Machine.execClearChannels bits s
  | .toggleChannels bits => Sys2Proof.Machine.execToggleChannels bits s
  | .setAllOn => Sys2Proof.Machine.execSetAllOn s
  | .setAllOff => Sys2Proof.Machine.execSetAllOff s
  | .toggleAll => Sys2Proof.Machine.execToggleAll s
  | .setExclusiveOn c => Sys2Proof.Machine.execSetExclusiveOn c s
  | .setExclusiveOff c => Sys2Proof.Machine.execSetExclusiveOff c s
  | .setMaskExact bits => Sys2Proof.Machine.execSetMaskExact bits s
  | .setMaskComplement bits => Sys2Proof.Machine.execSetMaskComplement bits s
  -- InputMap and BooleanOp registers (spec/41_map_bool_ops.md)
  | .setChannelMapTrue c => Sys2Proof.Machine.execSetChannelMapTrue c s
  | .setChannelMapFalse c => Sys2Proof.Machine.execSetChannelMapFalse c s
  | .setAllChannelsMapTrue => Sys2Proof.Machine.execSetAllChannelsMapTrue s
  | .setAllChannelsMapFalse => Sys2Proof.Machine.execSetAllChannelsMapFalse s
  | .setChannelBooleanAnd c => Sys2Proof.Machine.execSetChannelBooleanAnd c s
  | .setChannelBooleanOr c => Sys2Proof.Machine.execSetChannelBooleanOr c s
  | .setAllChannelsBooleanAnd => Sys2Proof.Machine.execSetAllChannelsBooleanAnd s
  | .setAllChannelsBooleanOr => Sys2Proof.Machine.execSetAllChannelsBooleanOr s
  -- Queries (spec/42_query_ops.md)
  | .getChannelsOn => Sys2Proof.Machine.execGetChannelsOn s
  | .getChannelCount => Sys2Proof.Machine.execGetChannelCount s
  -- Lifecycle (spec/43_lifecycle.md)
  | .setup n => Sys2Proof.Machine.execSetup n s
  | .reset => Sys2Proof.Machine.execReset s

end Sys2Proof.Machine
end

