-- ==== Sys2Proof/Machine/Arbiter.lean ====
section
/-! DEFINITION. The channel-operation atomicity arbiter (spec/20_memory.md R80 to R87, spec/60_exceptions.md R230 to R233):
presenting commands, starting operations, performing a MAIN frame's events under SHADOW_ONLY, and preempting it. -/

namespace Sys2Proof.Machine

/-- `pending[p]` (R30). -/
def State.pending (s : State) : Port → Option Command
  | .main => s.pendMain
  | .irq => s.pendIrq

/-- The MAIN caller presents its next command once nothing of its own is outstanding (R30, R75; log entry 3). -/
def presentMain (s : State) : State :=
  match s.inMain with
  | [] => s
  | w :: rest =>
    if s.pendMain = none ∧ s.owner ≠ some .main ∧ s.mainCtx = none then
      { s with pendMain := some w, inMain := rest }
    else s

/-- The IRQ caller presents its next command once nothing of its own is outstanding (R30, R75; log entry 3). -/
def presentIrq (s : State) : State :=
  match s.inIrq with
  | [] => s
  | w :: rest =>
    if s.pendIrq = none ∧ s.owner ≠ some .irq then
      { s with pendIrq := some w, inIrq := rest }
    else s

/-- Both callers present what they may. -/
def present (s : State) : State := presentIrq (presentMain s)

/-- Give the block to port p for the command word w: `pending[p]` is cleared when the arbiter starts it (R81, R230). -/
def grant (p : Port) (w : Command) (s : State) : State :=
  match p with
  | .main => { s with owner := some .main, cmd := w, pendMain := none }
  | .irq => { s with owner := some .irq, cmd := w, pendIrq := none }

/-- Run the command word the owner presented: the operation it decodes to, or ILLEGAL_OPCODE (R104, R221). -/
def runCommand (w : Command) (s : State) : Answered :=
  match decode w with
  | .legal i => exec i s
  | .reserved _ => .next (raiseFault .illegalOpcode s)

/-- Start port p's pending operation (R81). With nothing pending the block stays as it is (log entry 6). -/
def start (p : Port) (s : State) : Answered :=
  match s.pending p with
  | some w => runCommand w (grant p w s)
  | none => .next s

/-- Is MAIN standing at a preemption point (R84)? Between steps MAIN owns the block only while its frame is under way or
about to complete under SHADOW_ONLY. -/
def atPreemptionPoint (s : State) : Bool :=
  s.owner == some .main && s.params.atomicScope == .shadowOnly

/-- Perform the next event of the frame under way, or complete the operation when the frame is over (R65, R84). -/
def advance (s : State) : State := if s.ser = .idle then complete s else serStep s

/-- One action of the block when the arbiter's choice is given: `irqNow` says that a pending IRQ command starts now.
At idle (R81) some pending command starts; at a preemption point (R84) an IRQ operation starts and runs to completion, MAIN
being saved and resumed (R86), or MAIN goes on. -/
def stepWith (irqNow : Bool) (s : State) : Answered :=
  match s.owner with
  | none =>
    if s.pendIrq.isSome && (irqNow || s.pendMain.isNone) then start .irq s else start .main s
  | some _ =>
    if atPreemptionPoint s && s.pendIrq.isSome && irqNow then start .irq (suspendMain s)
    else .next (advance s)

/-- Has the arbiter a choice to make? An IRQ command is pending, and MAIN could go first or go on. -/
def contested (s : State) : Bool :=
  s.pendIrq.isSome && (if s.owner = none then s.pendMain.isSome else atPreemptionPoint s)

/-- The arbiter's choice: the outside's schedule while it lasts, then a free value (R81, R84, D25; log entry 4). -/
def choice (s : State) : Bool :=
  match s.sched with
  | b :: _ => b
  | [] => Config.freeChoice s.drawn

/-- The state once that choice is taken. -/
def chosen (s : State) : State :=
  match s.sched with
  | _ :: rest => { s with sched := rest }
  | [] => { s with drawn := s.drawn + 1 }

/-- One action of the block: the callers present, and the arbiter acts, choosing where it has a choice. -/
def act (s : State) : Answered :=
  let s := present s
  if contested s then stepWith (choice s) (chosen s) else stepWith false s

/-- Present the command word w on the MAIN port of an idle block so that the next action runs it: no operation is under
way, and if the IRQ port has a command, the schedule lets MAIN go first. -/
def placeCommand (w : Command) (s : State) : State :=
  { s with
    owner := none, ser := .idle, mainCtx := none, pendMain := some w
    sched := if s.pendIrq.isSome || !s.inIrq.isEmpty then false :: s.sched else s.sched }

end Sys2Proof.Machine
end

