-- ==== Sys2Proof/Machine/Step.lean ====
section
/-! DEFINITION. One step of the machine, and a command placed where the next step takes it. -/

namespace Sys2Proof.Machine

/-- One step: one action of the arbiter (`act`). An operation that holds the arbiter is one step; under SHADOW_ONLY a MAIN
operation's start, each event of its frame, and its completion are one step each (R83, R84; log entry 5). -/
def step (s : State) : Host.Outcome State Fault Refusal := act s

/-- The 40-bit command word w presented on the MAIN port of an idle block (log entry 20). The block fetches from nowhere
(R29), and every command is exactly 40 bits (R100), so `nbits` adds nothing: the bits above it are 0 in `w`. -/
def State.withFetchWord (s : State) (_nbits w : Nat) : State := placeCommand (BitVec.ofNat 40 w) s

end Sys2Proof.Machine
end

