-- ==== Sys2Proof/Machine/Observer.lean ====
section
/-! DEFINITION. The informative chain observer of spec/70_reset_and_hazards.md R262: what a daisy chain of ICs would hold,
read off the block's trace. It is not part of the block, and `State` holds nothing of it (R33, R262). -/

namespace Sys2Proof.Machine

/-- One IC: its 16-bit shift register `sr` and its eight device registers by address, one byte each (R236, R262). -/
structure Chip where
  sr  : BitVec 16
  dev : List Byte
  deriving DecidableEq, Repr

/-- The chain, chip 0 first, and the level of chip-select it sees. -/
structure Chain where
  cs    : PinLevel
  chips : List Chip
  deriving DecidableEq, Repr

/-- Shift one byte in at chip 0: each chip's older byte moves on to the next chip, the last one's is lost (R262). -/
def shiftIn (b : Byte) : List Chip → List Chip
  | [] => []
  | c :: rest => { c with sr := c.sr.extractLsb' 0 8 ++ b } :: shiftIn (c.sr.extractLsb' 8 8) rest

/-- A chip decodes its shift register as `{cmd, data}`: a Write sets the addressed register (R262). -/
def Chip.latch (c : Chip) : Chip :=
  let cmd := c.sr.extractLsb' 8 8
  if cmd.extractLsb' 6 2 = Selector.write.code then
    { c with dev := c.dev.set (cmd.extractLsb' 0 3).toNat (c.sr.extractLsb' 0 8) }
  else c

/-- The registers of chip j after a reset pulse, from `IC_RESET_VALUES` (R7, R257, D40). -/
def Chip.afterReset (icReset : Nat → BitVec 3 → Byte) (j : Nat) (c : Chip) : Chip :=
  { c with dev := (List.range 8).map fun a => icReset j (BitVec.ofNat 3 a) }

/-- What one event of the trace does to the chain (R262). Asserting the reset line loads `IC_RESET_VALUES` (R257, log entry
15); bus settings, delays and pin directions do nothing. -/
def observe (icReset : Nat → BitVec 3 → Byte) (c : Chain) : Event → Chain
  | .xfer b => if c.cs = .drive Config.csActive then { c with chips := shiftIn b c.chips } else c
  | .pin .cs level =>
    { cs := .drive level
      chips := if level ≠ Config.csActive ∧ c.cs = .drive Config.csActive then c.chips.map Chip.latch else c.chips }
  | .pin .rst level =>
    if level = Config.rstActive then { c with chips := c.chips.mapIdx (Chip.afterReset icReset) } else c
  | .pinOut _ | .busBegin | .txnBegin _ _ _ | .txnEnd | .delay _ => c

/-- What a trace does to the chain. -/
def observeAll (icReset : Nat → BitVec 3 → Byte) (c : Chain) (t : List Event) : Chain :=
  t.foldl (observe icReset) c

/-- The register at address a of chip j; 0 for a chip or an address the chain has not. -/
def Chain.device (c : Chain) (j : Nat) (a : BitVec 3) : Byte :=
  ((c.chips[j]?).bind fun chip => chip.dev[a.toNat]?).getD 0

end Sys2Proof.Machine
end

