-- ==== Sys2Proof/Safety.lean ====
section
/-! DEFINITION. The terms in which claims about the block are made: a frame as a list of events, what an operation may have
done to the state, the invariants of a safe state, and the reading of the trace as frames. -/

namespace Sys2Proof.Machine

/-! Frames. -/

/-- The bytes of a frame for n chips: command byte and data byte per chip, highest chip first (R52, R53, R66). -/
def frameBytes (n : Nat) (k : Kind) (v : Word) : List Byte :=
  (List.range n).reverse.flatMap fun ic => [writeCmd k, chipByte v ic]

/-- The complete event list of a frame (R66). -/
def frame (p : Params) (cc : BitVec 3) (k : Kind) (v : Word) : List Event :=
  (if p.reconfigEachTxn then [txnBeginEvent] else []) ++
    (.pin .cs false :: (frameBytes cc.toNat k v).map .xfer) ++
    (.pin .cs true :: if p.reconfigEachTxn then [.txnEnd] else [])

/-- The position after this one, in the order of R65 (R29): highest chip first, its command byte before its data byte. -/
def SerPos.following (p : Params) (cc : BitVec 3) : SerPos → SerPos
  | .idle => .idle
  | .pre => .cslo
  | .cslo => if cc = 0 then .cshi else .cmd (cc.toNat - 1)
  | .cmd ic => .data ic
  | .data ic => if ic = 0 then .cshi else .cmd (ic - 1)
  | .cshi => if p.reconfigEachTxn then .post else .idle
  | .post => .idle

/-- The number of events of a frame (R66). -/
def frameLength (p : Params) (cc : BitVec 3) : Nat :=
  2 * cc.toNat + (if p.reconfigEachTxn then 4 else 2)

/-- The events of `setup` before its frames (R200). -/
def openingEvents (p : Params) : List Event :=
  [.pinOut .cs, .pin .cs true] ++ (if p.hasRst then [.pinOut .rst, .pin .rst true] else []) ++ [.busBegin]

/-- Perform the next `n` frame events (R29). -/
def serRun : Nat → State → State
  | 0, s => s
  | n + 1, s => serRun n (serStep s)

/-! What an operation did. In all of these `s` is the state it was executed in, `p` the port that owned the block there, and
`t` the state after it. -/

/-- The operation answers a next state that is as `P` says. -/
def Gives (o : Answered) (P : State → Prop) : Prop := ∃ t, o = .next t ∧ P t

/-- The parameters, the pending commands, the callers and the arbiter's choices are as before. -/
def SameSurroundings (s t : State) : Prop :=
  t.params = s.params ∧ t.pendMain = s.pendMain ∧ t.pendIrq = s.pendIrq ∧ t.inMain = s.inMain ∧ t.inIrq = s.inIrq ∧
    t.sched = s.sched ∧ t.drawn = s.drawn

/-- Port p saw the operation complete, with the value `v` or without one (R12). -/
def AnsweredTo (p : Port) (v : Option Word) (s t : State) : Prop :=
  t.answers = s.answers ++ [⟨p, v⟩]

/-- Who has the block after port p's operation completed. An IRQ operation that interrupted MAIN gives it back with the
serializer as MAIN left it (R86); otherwise nobody owns it and the serializer is at `pos`, `k`, `v`. -/
def HandedBack (p : Port) (pos : SerPos) (k : Kind) (v : Word) (s t : State) : Prop :=
  match p, s.mainCtx with
  | .irq, some c =>
    t.owner = some .main ∧ t.mainCtx = none ∧ t.ser = c.ser ∧ t.serKind = c.serKind ∧ t.serVal = c.serVal ∧ t.cmd = c.cmd
  | _, _ =>
    t.owner = none ∧ t.mainCtx = s.mainCtx ∧ t.ser = pos ∧ t.serKind = k ∧ t.serVal = v ∧ t.cmd = s.cmd

/-- Shadow `k` took the value `v` and a frame with it was sent; nothing else changed (R13). When the operation does not hold
the arbiter for its frame (MAIN under SHADOW_ONLY), it stands at p0 of R84: the frame is begun, at the position R29
names, and none of its events is performed (log entry 5). -/
def Wrote (p : Port) (k : Kind) (v : Word) (s t : State) : Prop :=
  t.shadow k = v ∧ (∀ j, j ≠ k → t.shadow j = s.shadow j) ∧ t.cc = s.cc ∧ t.initialized = s.initialized ∧
    t.rstN = s.rstN ∧ t.faults = s.faults ∧ SameSurroundings s t ∧
    if s.params.atomicScope = .wholeOp ∨ p = .irq then
      t.trace = s.trace ++ frame s.params s.cc k v ∧ t.csN = .drive true ∧ AnsweredTo p none s t ∧
        HandedBack p .idle k v s t
    else
      t.trace = s.trace ∧ t.csN = s.csN ∧ t.answers = s.answers ∧ t.owner = some .main ∧ t.mainCtx = s.mainCtx ∧
        t.cmd = s.cmd ∧ t.ser = (if s.params.reconfigEachTxn then .pre else .cslo) ∧ t.serKind = k ∧ t.serVal = v

/-- No register, flag or line changed and no event was emitted (R225, R220, R190); the block is handed back. -/
def NothingWritten (p : Port) (s t : State) : Prop :=
  (∀ j, t.shadow j = s.shadow j) ∧ t.cc = s.cc ∧ t.initialized = s.initialized ∧ t.csN = s.csN ∧ t.rstN = s.rstN ∧
    t.trace = s.trace ∧ SameSurroundings s t ∧ HandedBack p s.ser s.serKind s.serVal s t

/-- The operation completed with the answer `v` and did nothing else. -/
def OnlyAnswered (p : Port) (v : Option Word) (s t : State) : Prop :=
  NothingWritten p s t ∧ t.faults = s.faults ∧ AnsweredTo p v s t

/-- The operation raised a model fault (R220): the record joined the set `faults`, and it completed without a value. -/
def Faulted (p : Port) (code : FaultCode) (s t : State) : Prop :=
  NothingWritten p s t ∧ AnsweredTo p none s t ∧ ∀ r, r ∈ t.faults ↔ r ∈ s.faults ∨ r = ⟨code, p, s.cmd⟩

/-! Safe states. -/

/-- A word with no bit at or above `8*cc` (R23). -/
def Masked (cc : BitVec 3) (v : Word) : Prop := v &&& ~~~allMask cc = 0

/-- The position is one of a frame for `cc` chips (R29). -/
def SerPos.Within (cc : BitVec 3) : SerPos → Prop
  | .cmd ic | .data ic => ic < cc.toNat
  | _ => True

/-- The invariant of the states between steps: a legal chip count (R25), unused bits zero (R23), `faults` a set (R32), no
IRQ operation half done (R85), MAIN in possession only under SHADOW_ONLY and after `setup` (R83, R222), and the
serializer at rest or inside MAIN's frame (R29). -/
structure Inv (s : State) : Prop where
  chips     : 1 ≤ s.cc.toNat ∧ s.cc.toNat ≤ 4
  masked    : ∀ k, Masked s.cc (s.shadow k)
  recordSet : s.faults.Nodup
  settled   : s.mainCtx = none ∧ s.owner ≠ some .irq
  mainOwns  : s.owner = some .main → s.params.atomicScope = .shadowOnly ∧ s.initialized = true
  resting   : s.owner = none → s.ser = .idle
  within    : s.ser.Within s.cc

/-! The trace read as frames (R90). -/

/-- What a reader of the trace holds: the bytes of the chip-select window now open, whether a transfer fell outside a
window, and the bytes of the last frame of each kind (for Control, since the last reset pulse). -/
structure Wire where
  window : Option (List Byte)
  stray  : Bool
  ctrl   : Option (List Byte)
  map    : Option (List Byte)
  bool   : Option (List Byte)
  deriving DecidableEq, Repr

/-- The reader before any event. -/
def Wire.empty : Wire := ⟨none, false, none, none, none⟩

/-- The last frame of a kind. -/
def Wire.last (w : Wire) : Kind → Option (List Byte)
  | .ctrl => w.ctrl
  | .map => w.map
  | .bool => w.bool

/-- A window closed with the bytes `bs`: its first command byte says which kind it wrote (R66). -/
def Wire.closed (bs : List Byte) (w : Wire) : Wire :=
  match bs with
  | [] => { w with window := none }
  | c :: _ =>
    if c = 0xC7 then { w with window := none, ctrl := some bs }
    else if c = 0xC1 then { w with window := none, map := some bs }
    else if c = 0xC2 then { w with window := none, bool := some bs }
    else { w with window := none }

/-- Read one event. -/
def Wire.read (w : Wire) : Event → Wire
  | .pin .cs false => { w with window := some (w.window.getD []) }
  | .pin .cs true =>
    match w.window with
    | some bs => w.closed bs
    | none => w
  | .pin .rst false => { w with ctrl := none }
  | .xfer b =>
    match w.window with
    | some bs => { w with window := some (bs ++ [b]) }
    | none => { w with stray := true }
  | _ => w

/-- Read a trace. -/
def readWire (t : List Event) : Wire := t.foldl Wire.read .empty

/-- The wire invariant of WHOLE_OP between operations (R90, R70): no window is open, no transfer fell outside one, and once
initialized the last frame of each kind carries exactly the shadow. For Control after a reset pulse with no Control frame
since, the shadow is 0 instead. -/
structure WireAgrees (s : State) : Prop where
  atRest  : s.owner = none ∧ s.mainCtx = none ∧ s.params.atomicScope = .wholeOp
  windows : (readWire s.trace).window = none ∧ (readWire s.trace).stray = false
  map     : s.initialized = true → (readWire s.trace).map = some (frameBytes s.cc.toNat .map s.inputMap)
  bool    : s.initialized = true → (readWire s.trace).bool = some (frameBytes s.cc.toNat .bool s.boolOp)
  ctrl    : s.initialized = true →
    (readWire s.trace).ctrl = some (frameBytes s.cc.toNat .ctrl s.ctrl) ∨ ((readWire s.trace).ctrl = none ∧ s.ctrl = 0)

/-- The level of a line after one event (R28, R60). -/
def levelAfter (p : Pin) (l : PinLevel) : Event → PinLevel
  | .pin q level => if q = p then .drive level else l
  | _ => l

/-- The level the trace last drove on a line (R28). -/
def lastLevel (p : Pin) (t : List Event) : PinLevel := t.foldl (levelAfter p) .z

/-- Both lines are at the level the trace says (R28). -/
def PinsFollowTrace (s : State) : Prop :=
  s.csN = lastLevel .cs s.trace ∧ s.rstN = lastLevel .rst s.trace

/-! The form of a register rule (R130): what R131 to R143, R171 to R174 and R176 to R179 say of each operation. `f` gives
the value `Update` stores, the mask of R13 included. -/

/-- An operation of format I. -/
def IndexRule (op : Opcode) (k : Kind) (mk : Word → Instr) (f : State → Word → Word) : Prop :=
  (∀ opd : Word, decode (op ++ opd) = .legal (mk opd)) ∧
    ∀ (p : Port) (s : State) (i : Word), s.owner = some p →
      (s.initialized = false → Gives (exec (mk i) s) (Faulted p .notInitialized s)) ∧
      (s.initialized = true → i.toNat < 8 * s.cc.toNat → Gives (exec (mk i) s) (Wrote p k (f s i) s)) ∧
      (s.initialized = true → 8 * s.cc.toNat ≤ i.toNat → Gives (exec (mk i) s) (OnlyAnswered p none s))

/-- An operation of format M. -/
def MaskRule (op : Opcode) (k : Kind) (mk : Word → Instr) (f : State → Word → Word) : Prop :=
  (∀ opd : Word, decode (op ++ opd) = .legal (mk opd)) ∧
    ∀ (p : Port) (s : State) (bits : Word), s.owner = some p →
      (s.initialized = false → Gives (exec (mk bits) s) (Faulted p .notInitialized s)) ∧
      (s.initialized = true → Gives (exec (mk bits) s) (Wrote p k (f s bits) s))

/-- An operation of format N that writes a register; its operand field is ignored (R102). -/
def PlainRule (op : Opcode) (k : Kind) (i : Instr) (f : State → Word) : Prop :=
  (∀ opd : Word, decode (op ++ opd) = .legal i) ∧
    ∀ (p : Port) (s : State), s.owner = some p →
      (s.initialized = false → Gives (exec i s) (Faulted p .notInitialized s)) ∧
      (s.initialized = true → Gives (exec i s) (Wrote p k (f s) s))

/-- A query (R190, R191): it answers `f s` and writes nothing. -/
def QueryRule (op : Opcode) (i : Instr) (f : State → Word) : Prop :=
  (∀ opd : Word, decode (op ++ opd) = .legal i) ∧
    ∀ (p : Port) (s : State), s.owner = some p →
      (s.initialized = false → Gives (exec i s) (Faulted p .notInitialized s)) ∧
      (s.initialized = true → Gives (exec i s) (OnlyAnswered p (some (f s)) s))

/-- A chain of `n` ICs with eight registers each (R262). -/
def Chain.OfLength (n : Nat) (c : Chain) : Prop :=
  c.chips.length = n ∧ ∀ chip ∈ c.chips, chip.dev.length = 8

/-! Which command the next step runs. -/

/-- Port p's pending command w is the only one that can start: the block is idle and the other port has nothing (R81). -/
def OnlyPending (p : Port) (w : Command) (s : State) : Prop :=
  s.owner = none ∧ s.pending p = some w ∧
    match p with
    | .main => s.pendIrq = none ∧ s.inIrq = []
    | .irq => s.pendMain = none ∧ s.inMain = []

end Sys2Proof.Machine
end

