-- ==== Sys2Proof/Certificates/Slice0/Obligations.lean ====
section
/-! DEFINITION. The statements for the provers. Each docstring says which sentence of spec/ it formalises, or which of the
model's own choices (a log entry) it rests on. -/

open Sys2Proof Sys2Proof.Machine

/-! Power-on and the invariants. -/

/-- R35: the power-on values, for every setting of the parameters. R35 calls `cc`, `ser_kind` and `ser_val` unspecified, so
nothing is said of them. The last clause, that the block does nothing of its own (R250), is in the form of the model's
idle step (log entry 6). -/
def Obligations.PowerOnStateIsAsListed : Prop :=
  ∀ p : Params,
    let s := State.powerOn p
    (∀ k, s.shadow k = 0) ∧ s.initialized = false ∧ s.csN = .z ∧ s.rstN = .z ∧ s.ser = .idle ∧ s.owner = none ∧
      s.mainCtx = none ∧ s.pendMain = none ∧ s.pendIrq = none ∧ s.faults = [] ∧ s.trace = [] ∧ step s = .next s

/-- `Inv` holds at power-on. Its clause on `cc` rests on the model's choice of 1 there (log entry 9). -/
def Obligations.SafeStateAtPowerOn : Prop := ∀ p : Params, Inv (State.powerOn p)

/-- R23, R25, R32, R83, R85: every step keeps `Inv`, whatever the commands, the parameters and the arbiter's choices. -/
def Obligations.EveryStepKeepsSafeState : Prop :=
  ∀ s t : State, Inv s → step s = .next t → Inv t

/-- The wire invariant holds at power-on under WHOLE_OP. -/
def Obligations.WireAgreesAtPowerOn : Prop :=
  ∀ p : Params, p.atomicScope = .wholeOp → WireAgrees (State.powerOn p)

/-- R90 and R70 under WHOLE_OP: every step keeps the agreement of the last frames with the shadows. -/
def Obligations.EveryStepKeepsWireAgreement : Prop :=
  ∀ s t : State, Inv s → WireAgrees s → step s = .next t → WireAgrees t

/-- R28: every write to a line also appears as a PIN event, so every step keeps both lines at the level the trace last
drove. -/
def Obligations.EveryStepKeepsPinsAtTraceLevels : Prop :=
  ∀ s t : State, PinsFollowTrace s → step s = .next t → PinsFollowTrace t

/-! Encoding. -/

/-- R100, R103: decoding the encoding of an operation gives it back, with every operand. -/
def Obligations.DecodeOfEncodeIsTheInstruction : Prop :=
  ∀ i : Instr, decode (encode i) = .legal i

/-- R102 to R104: encoding what a word decodes to gives the word back, but for the ignored operand of format N, which
becomes 0 (R106). -/
def Obligations.EncodeOfDecodeIsTheWord : Prop :=
  ∀ (w : Command) (i : Instr), decode w = .legal i →
    encode i = if i.format = .none then w &&& 0xFF00000000 else w

/-- R104, against the list of reserved opcodes in R105: a word decodes to an operation exactly when its opcode is not
reserved, to `reserved` otherwise, and the operand never affects which row is selected. -/
def Obligations.DecodingIsTotalAndFollowsTheOpcode : Prop :=
  ∀ (op : Opcode) (a b : Word),
    (WellFormed.opcode op = true →
      ∃ i j, decode (op ++ a) = .legal i ∧ decode (op ++ b) = .legal j ∧ i.opcode = op ∧ j.opcode = op) ∧
      (WellFormed.opcode op = false → decode (op ++ a) = .reserved op)

/-- R108: the worked encodings. -/
def Obligations.WorkedEncodingsDecode : Prop :=
  decode 0x1000000005 = .legal (.setChannel 5) ∧ decode 0x1300AABBCC = .legal (.setChannels 0xAABBCC) ∧
    decode 0x5000000003 = .legal (.setup 3) ∧ decode 0x1800000000 = .legal .toggleAll

/-- R115, R116, R117: the command byte of every selector the table has and every named address. -/
def Obligations.WireCommandBytesAreTheTable : Prop :=
  [DevReg.inputMap, .booleanOp, .overloadBehavior, .overtempBehavior, .slewRate, .outputState, .control].map
      (fun r => (wireCmd Selector.write.code r.address, wireCmd Selector.read.code r.address,
        wireCmd Selector.reset.code r.address)) =
    [(0xC1, 0x41, 0x81), (0xC2, 0x42, 0x82), (0xC3, 0x43, 0x83), (0xC4, 0x44, 0x84), (0xC5, 0x45, 0x85),
      (0xC6, 0x46, 0x86), (0xC7, 0x47, 0x87)]

/-! Steps. -/

/-- A step runs the decoded instruction (R75, R81, R230): when port p's command is the only one that can start, the step is
`exec` of what it decodes to, with p the owner, the word kept, and the pending slot cleared. -/
def Obligations.StepRunsTheDecodedInstruction : Prop :=
  ∀ (s : State) (w : Command) (i : Instr), decode w = .legal i →
    (OnlyPending .main w s → step s = exec i { s with owner := some .main, cmd := w, pendMain := none }) ∧
      (OnlyPending .irq w s → step s = exec i { s with owner := some .irq, cmd := w, pendIrq := none })

/-- R221: a command with a reserved opcode raises ILLEGAL_OPCODE on either port, in either state, whenever the arbiter starts
it; nothing else changes. In particular a step does so when it is the only command that can start. -/
def Obligations.ReservedOpcodeRaisesIllegalOpcode : Prop :=
  ∀ (s : State) (p : Port) (w : Command), WellFormed.command w = false →
    Gives (runCommand w (grant p w s)) (Faulted p .illegalOpcode (grant p w s)) ∧
      (OnlyPending p w s → Gives (step s) (Faulted p .illegalOpcode (grant p w s)))

/-- R81: when both ports are pending at idle, some schedule starts each of them first, and without a schedule the step is
one of the two (the free choice, log entry 4). -/
def Obligations.EitherPendingPortMayStartFirst : Prop :=
  ∀ (s : State) (m q : Command), s.owner = none → s.pendMain = some m → s.pendIrq = some q →
    (∀ rest, s.sched = false :: rest → step s = runCommand m (grant .main m { s with sched := rest })) ∧
      (∀ rest, s.sched = true :: rest → step s = runCommand q (grant .irq q { s with sched := rest })) ∧
      (s.sched = [] →
        step s = runCommand m (grant .main m { s with drawn := s.drawn + 1 }) ∨
          step s = runCommand q (grant .irq q { s with drawn := s.drawn + 1 }))

/-- R220, R229, R61: nothing stops the machine. Every operation, in every state, answers a next state, and so does every
step. -/
def Obligations.EveryOperationAnswersNext : Prop :=
  (∀ (i : Instr) (s : State), ∃ t, exec i s = .next t) ∧ ∀ s : State, ∃ t, step s = .next t

/-- R83, R75: under WHOLE_OP a step at idle leaves the block idle. That a command still in `inMain` or `inIrq` is presented
in this very step is log entry 3, that one step is one operation is log entry 5, and that a step with nothing waiting
changes nothing is log entry 6. -/
def Obligations.WholeOpStepCompletesOneOperation : Prop :=
  ∀ s : State, s.params.atomicScope = .wholeOp → s.owner = none → s.mainCtx = none →
    Gives (step s) fun t =>
      t.owner = none ∧ t.mainCtx = none ∧
        if s.pendMain = none ∧ s.pendIrq = none ∧ s.inMain = [] ∧ s.inIrq = [] then t = s
        else ∃ a, t.answers = s.answers ++ [a]

/-- R32, R60, R61: no step takes back an event, a fault record or an answer. -/
def Obligations.OutputsAndFaultsOnlyGrow : Prop :=
  ∀ s t : State, step s = .next t → s.trace <+: t.trace ∧ s.faults <+: t.faults ∧ s.answers <+: t.answers

/-- R33: no step writes the parameters. -/
def Obligations.NoStepWritesTheParameters : Prop :=
  ∀ s t : State, step s = .next t → t.params = s.params

/-- R25, R26: only `setup` writes `cc` and `initialized`, and nothing makes `initialized` false. -/
def Obligations.OnlySetupWritesChipCountAndFlag : Prop :=
  (∀ (i : Instr) (s t : State), exec i s = .next t → (∀ n, i ≠ .setup n) →
      t.cc = s.cc ∧ t.initialized = s.initialized) ∧
    ∀ s t : State, step s = .next t → s.initialized = true → t.initialized = true

/-- R24: which operations write which shadow, by the opcode's group (R101): group 1 only `S[CTRL]`, 2 only `S[MAP]`,
3 only `S[BOOL]`, queries none, `reset` only `S[CTRL]`; `setup` may write all. -/
def Obligations.ShadowsAreWrittenByTheirOwnGroup : Prop :=
  ∀ (i : Instr) (s t : State), exec i s = .next t → (∀ n, i ≠ .setup n) →
    (t.ctrl ≠ s.ctrl → i.opcode.extractLsb' 4 4 = 1 ∨ i = .reset) ∧
      (t.inputMap ≠ s.inputMap → i.opcode.extractLsb' 4 4 = 2) ∧
      (t.boolOp ≠ s.boolOp → i.opcode.extractLsb' 4 4 = 3)

/-! Faults and silent policies. -/

/-- R223, R224: `setup` and `reset` on the IRQ port raise PORT_NOT_PERMITTED, initialized or not. -/
def Obligations.LifecycleOnIrqPortRaisesPortNotPermitted : Prop :=
  ∀ s : State, s.owner = some .irq →
    (∀ n, Gives (exec (.setup n) s) (Faulted .irq .portNotPermitted s)) ∧
      Gives (exec .reset s) (Faulted .irq .portNotPermitted s)

/-- R222 with the precedence of R224: before `setup` every other operation raises NOT_INITIALIZED, unless it is `reset` on
the IRQ port. -/
def Obligations.EverythingButSetupFaultsBeforeSetup : Prop :=
  ∀ (i : Instr) (p : Port) (s : State), s.owner = some p → s.initialized = false → (∀ n, i ≠ .setup n) →
    ¬(i = .reset ∧ p = .irq) → Gives (exec i s) (Faulted p .notInitialized s)

/-- R225: every operation of format I with an index out of range is a complete no-op; the `initialized` check comes first. -/
def Obligations.OutOfRangeIndexIsANoOp : Prop :=
  ∀ (i : Instr) (p : Port) (s : State), s.owner = some p → i.format = .index → 8 * s.cc.toNat ≤ i.operand.toNat →
    (s.initialized = true → Gives (exec i s) (OnlyAnswered p none s)) ∧
      (s.initialized = false → Gives (exec i s) (Faulted p .notInitialized s))

/-! Control register operations. -/

/-- R131, by R130 and R13. Under SHADOW_ONLY `exec` on MAIN stops at p0 of R84 (log entry 5). -/
def Obligations.SetChannelTurnsOneChannelOn : Prop :=
  IndexRule 0x10 .ctrl .setChannel fun s i => (s.ctrl ||| (1#32 <<< i.toNat)) &&& allMask s.cc

/-- R132, by R130 and R13. Under SHADOW_ONLY `exec` on MAIN stops at p0 of R84 (log entry 5). -/
def Obligations.ClearChannelTurnsOneChannelOff : Prop :=
  IndexRule 0x11 .ctrl .clearChannel fun s i => (s.ctrl &&& ~~~(1#32 <<< i.toNat)) &&& allMask s.cc

/-- R133, by R130 and R13. Under SHADOW_ONLY `exec` on MAIN stops at p0 of R84 (log entry 5). -/
def Obligations.ToggleChannelInvertsOneChannel : Prop :=
  IndexRule 0x12 .ctrl .toggleChannel fun s i => (s.ctrl ^^^ (1#32 <<< i.toNat)) &&& allMask s.cc

/-- R134, by R130 and R13. Under SHADOW_ONLY `exec` on MAIN stops at p0 of R84 (log entry 5). -/
def Obligations.SetChannelsTurnsTheMaskOn : Prop :=
  MaskRule 0x13 .ctrl .setChannels fun s bits => (s.ctrl ||| bits) &&& allMask s.cc

/-- R135, by R130 and R13. Under SHADOW_ONLY `exec` on MAIN stops at p0 of R84 (log entry 5). -/
def Obligations.ClearChannelsTurnsTheMaskOff : Prop :=
  MaskRule 0x14 .ctrl .clearChannels fun s bits => (s.ctrl &&& ~~~bits) &&& allMask s.cc

/-- R136, by R130 and R13. Under SHADOW_ONLY `exec` on MAIN stops at p0 of R84 (log entry 5). -/
def Obligations.ToggleChannelsInvertsTheMask : Prop :=
  MaskRule 0x15 .ctrl .toggleChannels fun s bits => (s.ctrl ^^^ bits) &&& allMask s.cc

/-- R137, by R130 and R13. Under SHADOW_ONLY `exec` on MAIN stops at p0 of R84 (log entry 5). -/
def Obligations.SetAllOnTurnsTheChainOn : Prop :=
  PlainRule 0x16 .ctrl .setAllOn fun s => allMask s.cc

/-- R138, by R130 and R13. Under SHADOW_ONLY `exec` on MAIN stops at p0 of R84 (log entry 5). -/
def Obligations.SetAllOffTurnsTheChainOff : Prop :=
  PlainRule 0x17 .ctrl .setAllOff fun _ => 0

/-- R139, by R130 and R13. Under SHADOW_ONLY `exec` on MAIN stops at p0 of R84 (log entry 5). -/
def Obligations.ToggleAllInvertsTheChain : Prop :=
  PlainRule 0x18 .ctrl .toggleAll fun s => ~~~s.ctrl &&& allMask s.cc

/-- R140, by R130 and R13. Under SHADOW_ONLY `exec` on MAIN stops at p0 of R84 (log entry 5). -/
def Obligations.SetExclusiveOnLeavesOneChannelOn : Prop :=
  IndexRule 0x19 .ctrl .setExclusiveOn fun _ i => 1#32 <<< i.toNat

/-- R141, by R130 and R13. Under SHADOW_ONLY `exec` on MAIN stops at p0 of R84 (log entry 5). -/
def Obligations.SetExclusiveOffLeavesOneChannelOff : Prop :=
  IndexRule 0x1A .ctrl .setExclusiveOff fun s i => allMask s.cc &&& ~~~(1#32 <<< i.toNat)

/-- R142, by R130 and R13. Under SHADOW_ONLY `exec` on MAIN stops at p0 of R84 (log entry 5). -/
def Obligations.SetMaskExactReplacesTheShadow : Prop :=
  MaskRule 0x1B .ctrl .setMaskExact fun s bits => bits &&& allMask s.cc

/-- R143, by R130 and R13. Under SHADOW_ONLY `exec` on MAIN stops at p0 of R84 (log entry 5). -/
def Obligations.SetMaskComplementReplacesWithComplement : Prop :=
  MaskRule 0x1C .ctrl .setMaskComplement fun s bits => ~~~bits &&& allMask s.cc

/-! InputMap and BooleanOp register operations. -/

/-- R171, by R130 and R13. Under SHADOW_ONLY `exec` on MAIN stops at p0 of R84 (log entry 5). -/
def Obligations.SetChannelMapTrueMapsOneChannel : Prop :=
  IndexRule 0x20 .map .setChannelMapTrue fun s i => (s.inputMap ||| (1#32 <<< i.toNat)) &&& allMask s.cc

/-- R172, by R130 and R13. Under SHADOW_ONLY `exec` on MAIN stops at p0 of R84 (log entry 5). -/
def Obligations.SetChannelMapFalseUnmapsOneChannel : Prop :=
  IndexRule 0x21 .map .setChannelMapFalse fun s i => (s.inputMap &&& ~~~(1#32 <<< i.toNat)) &&& allMask s.cc

/-- R173 and R174, by R130 and R13. Under SHADOW_ONLY `exec` on MAIN stops at p0 of R84 (log entry 5). -/
def Obligations.SetAllChannelsMapWritesTheWholeMap : Prop :=
  PlainRule 0x26 .map .setAllChannelsMapTrue (fun s => allMask s.cc) ∧
    PlainRule 0x27 .map .setAllChannelsMapFalse fun _ => 0

/-- R176, for both values of `AND_BIT` (with 1 a bit set, with 0 a bit clear), by R130 and R13. Under SHADOW_ONLY
`exec` on MAIN stops at p0 of R84 (log entry 5). -/
def Obligations.SetChannelBooleanAndSelectsAnd : Prop :=
  IndexRule 0x30 .bool .setChannelBooleanAnd fun s i =>
    (if s.params.andBit then s.boolOp ||| (1#32 <<< i.toNat) else s.boolOp &&& ~~~(1#32 <<< i.toNat)) &&& allMask s.cc

/-- R177, for both values of `AND_BIT`, by R130 and R13. Under SHADOW_ONLY `exec` on MAIN stops at p0 of R84 (log
entry 5). -/
def Obligations.SetChannelBooleanOrSelectsOr : Prop :=
  IndexRule 0x31 .bool .setChannelBooleanOr fun s i =>
    (if s.params.andBit then s.boolOp &&& ~~~(1#32 <<< i.toNat) else s.boolOp ||| (1#32 <<< i.toNat)) &&& allMask s.cc

/-- R178 and R179, for both values of `AND_BIT`, by R130 and R13. Under SHADOW_ONLY `exec` on MAIN stops at p0 of R84
(log entry 5). -/
def Obligations.SetAllChannelsBooleanWritesTheWholeRegister : Prop :=
  PlainRule 0x36 .bool .setAllChannelsBooleanAnd (fun s => if s.params.andBit then allMask s.cc else 0) ∧
    PlainRule 0x37 .bool .setAllChannelsBooleanOr fun s => if s.params.andBit then 0 else allMask s.cc

/-- R22, R21: what the single-channel operations do in terms of channels: channel i changes as its name says, and every
other channel of the chain stays. -/
def Obligations.SingleChannelOperationsChangeOneChannel : Prop :=
  ∀ (s : State) (i : Word) (j : Nat), s.initialized = true → i.toNat < 8 * s.cc.toNat → j < 8 * s.cc.toNat → j < 32 →
    Gives (exec (.setChannel i) s) (fun t => t.channelOn j = (s.channelOn j || j == i.toNat)) ∧
      Gives (exec (.clearChannel i) s) (fun t => t.channelOn j = (s.channelOn j && j != i.toNat)) ∧
      Gives (exec (.toggleChannel i) s) (fun t => t.channelOn j = (s.channelOn j ^^ j == i.toNat)) ∧
      Gives (exec (.setChannelMapTrue i) s) (fun t => t.channelMapped j = (s.channelMapped j || j == i.toNat)) ∧
      Gives (exec (.setChannelMapFalse i) s) (fun t => t.channelMapped j = (s.channelMapped j && j != i.toNat)) ∧
      Gives (exec (.setChannelBooleanAnd i) s) (fun t => t.channelAnds j = (s.channelAnds j || j == i.toNat)) ∧
      Gives (exec (.setChannelBooleanOr i) s) (fun t => t.channelAnds j = (s.channelAnds j && j != i.toNat))

/-! Queries and lifecycle. -/

/-- R190. -/
def Obligations.GetChannelsOnAnswersTheControlShadow : Prop :=
  QueryRule 0x40 .getChannelsOn fun s => s.ctrl

/-- R191. -/
def Obligations.GetChannelCountAnswersEightPerChip : Prop :=
  QueryRule 0x41 .getChannelCount fun s => BitVec.ofNat 32 (8 * s.cc.toNat)

/-- R200, R201, R203: `setup`, in `Uninitialized` and in `Initialized`, on the MAIN port and on the IRQ port. -/
def Obligations.SetupDrivesAllThreeRegisters : Prop :=
  (∀ opd : Word, decode (0x50#8 ++ opd) = .legal (.setup opd)) ∧
    (∀ (s : State) (n : Word), s.owner = some .irq → Gives (exec (.setup n) s) (Faulted .irq .portNotPermitted s)) ∧
    ∀ (s : State) (n : Word), s.owner = some .main →
      Gives (exec (.setup n) s) fun t =>
        t.cc.toNat = (if 1 ≤ n.toNat ∧ n.toNat ≤ 4 then n.toNat else 1) ∧ t.initialized = true ∧
          t.inputMap = allMask t.cc ∧ t.boolOp = (if s.params.andBit then allMask t.cc else 0) ∧ t.ctrl = 0 ∧
          t.csN = .drive true ∧ t.rstN = (if s.params.hasRst then .drive true else s.rstN) ∧
          t.trace = s.trace ++ openingEvents s.params ++ frame s.params t.cc .map t.inputMap ++
            frame s.params t.cc .bool t.boolOp ++ frame s.params t.cc .ctrl 0 ∧
          t.faults = s.faults ∧ AnsweredTo .main none s t ∧ SameSurroundings s t ∧ HandedBack .main .idle .ctrl 0 s t

/-- R205, R206, R207: `reset`, on the MAIN port and on the IRQ port. -/
def Obligations.ResetPulsesTheLineAndZeroesControl : Prop :=
  (∀ opd : Word, decode (0x51#8 ++ opd) = .legal .reset) ∧
    (∀ s : State, s.owner = some .irq → Gives (exec .reset s) (Faulted .irq .portNotPermitted s)) ∧
    ∀ s : State, s.owner = some .main →
      (s.initialized = false → Gives (exec .reset s) (Faulted .main .notInitialized s)) ∧
      (s.initialized = true → s.params.hasRst = false → Gives (exec .reset s) (OnlyAnswered .main none s)) ∧
      (s.initialized = true → s.params.hasRst = true →
        Gives (exec .reset s) fun t =>
          t.ctrl = 0 ∧ t.inputMap = s.inputMap ∧ t.boolOp = s.boolOp ∧ t.cc = s.cc ∧ t.initialized = true ∧
            t.csN = s.csN ∧ t.rstN = .drive true ∧ t.trace = s.trace ++ [.pin .rst false, .delay 200, .pin .rst true] ∧
            t.faults = s.faults ∧ AnsweredTo .main none s t ∧ SameSurroundings s t ∧
            HandedBack .main s.ser s.serKind s.serVal s t)

/-! Laws the source gives as testable properties (spec/95_test_vectors.md W3 to W5, W8). -/

/-- R8: `all_mask` and the 32-channel corner. -/
def Obligations.AllMaskCoversTheChain : Prop :=
  (allMask 1 = 0xFF ∧ allMask 2 = 0xFFFF ∧ allMask 3 = 0xFFFFFF ∧ allMask 4 = 0xFFFFFFFF) ∧
    ∀ (cc : BitVec 3) (j : Nat), j < 32 → (allMask cc).getLsbD j = decide (j < 8 * cc.toNat)

/-- R139, W4: `toggle_all` twice restores the Control shadow. The premise is `Inv`'s clause on unused bits (R23). -/
def Obligations.ToggleAllTwiceRestores : Prop :=
  ∀ s : State, s.initialized = true → Masked s.cc s.ctrl →
    Gives (exec .toggleAll s) fun t => Gives (exec .toggleAll t) fun u => u.ctrl = s.ctrl

/-- R135, W5: `set_channels` then `clear_channels` with the same mask leaves `m & ~bits`. -/
def Obligations.ClearAfterSetRemovesTheMask : Prop :=
  ∀ (s : State) (bits : Word), s.initialized = true → Masked s.cc s.ctrl →
    Gives (exec (.setChannels bits) s) fun t =>
      Gives (exec (.clearChannels bits) t) fun u => u.ctrl = s.ctrl &&& ~~~bits

/-- R202 (W8), and W3 of R140: what `get_channels_on` answers, to whichever port asks, after `setup` and after a
`set_exclusive_on` in range. -/
def Obligations.QueryAfterWriteReadsTheWrite : Prop :=
  ∀ (s : State) (p : Port),
    (∀ n : Word, s.owner = some .main →
      Gives (exec (.setup n) s) fun t =>
        Gives (exec .getChannelsOn { t with owner := some p }) fun u => AnsweredTo p (some 0) t u) ∧
      ∀ i : Word, s.initialized = true → i.toNat < 8 * s.cc.toNat →
        Gives (exec (.setExclusiveOn i) s) fun t =>
          Gives (exec .getChannelsOn { t with owner := some p }) fun u => AnsweredTo p (some (1#32 <<< i.toNat)) t u

/-! The serializer and the two atomicity policies. -/

/-- R66: the events of a frame, in the form `frame` and written out for some chip counts, their number, and the command
bytes. -/
def Obligations.FrameIsExactlyTheListedEvents : Prop :=
  ∀ (s : State) (k : Kind) (v : Word),
    (writeCmd .ctrl = 0xC7 ∧ writeCmd .map = 0xC1 ∧ writeCmd .bool = 0xC2) ∧
      (chainWrite k v s).trace = s.trace ++ frame s.params s.cc k v ∧
      (frame s.params s.cc k v).length = frameLength s.params s.cc ∧
      (s.params.reconfigEachTxn = false → s.cc = 1 → (chainWrite k v s).trace = s.trace ++
        [.pin .cs false, .xfer (writeCmd k), .xfer (v.extractLsb' 0 8), .pin .cs true]) ∧
      (s.params.reconfigEachTxn = false → s.cc = 4 → (chainWrite k v s).trace = s.trace ++
        [.pin .cs false, .xfer (writeCmd k), .xfer (v.extractLsb' 24 8), .xfer (writeCmd k), .xfer (v.extractLsb' 16 8),
          .xfer (writeCmd k), .xfer (v.extractLsb' 8 8), .xfer (writeCmd k), .xfer (v.extractLsb' 0 8), .pin .cs true]) ∧
      (s.params.reconfigEachTxn = true → s.cc = 2 → (chainWrite k v s).trace = s.trace ++
        [.txnBegin 4000000 .msbFirst .mode1, .pin .cs false, .xfer (writeCmd k), .xfer (v.extractLsb' 8 8),
          .xfer (writeCmd k), .xfer (v.extractLsb' 0 8), .pin .cs true, .txnEnd])

/-- R65 with R29: performing a frame one event at a time, as the positions say, is the same as the uninterrupted
`ChainWrite`, for every kind, value, chip count and parameter. -/
def Obligations.EventByEventFrameEqualsChainWrite : Prop :=
  ∀ (s : State) (k : Kind) (v : Word),
    serRun (frameLength s.params s.cc) (beginFrame k v s) = { chainWrite k v s with owner := some s.requester }

/-- R84, R83: a MAIN operation that no IRQ command interrupts ends, under SHADOW_ONLY, in the state WHOLE_OP gives it. The
number of steps is log entry 5: one to start it, one for each event of its frame, and one to complete it. -/
def Obligations.UninterruptedShadowOnlyEqualsWholeOp : Prop :=
  ∀ (s u : State) (w : Command) (i : Instr), OnlyPending .main w s → s.params.atomicScope = .shadowOnly →
    decode w = .legal i →
    exec i { s with owner := some .main, cmd := w, pendMain := none } = .next u → u.owner = some .main →
    ∃ t, exec i { s with owner := some .main, cmd := w, pendMain := none,
                         params := { s.params with atomicScope := .wholeOp } } = .next t ∧
      Host.Core.run core (frameLength s.params s.cc + 2) s = .next { t with params := s.params }

/-- R84, R231: at every preemption point of MAIN a pending IRQ command may start now or wait, as the schedule says; without a
schedule it is one of the two (the free choice, log entry 4). -/
def Obligations.IrqMayStartAtEveryPreemptionPoint : Prop :=
  ∀ s : State, s.owner = some .main → s.params.atomicScope = .shadowOnly → s.pendIrq ≠ none →
    (∀ b rest, s.sched = b :: rest → step s = stepWith b { s with sched := rest }) ∧
      (s.sched = [] → ∃ b, step s = stepWith b { s with drawn := s.drawn + 1 })

/-- R86, R85, R233: at a preemption point of MAIN, a pending IRQ command chosen now runs its own operation to completion:
what the word decodes to, run for the IRQ port with MAIN saved. MAIN has the block back with its serializer as it was.
That all of it is one action is log entry 5. -/
def Obligations.PreemptionGivesMainItsFrameBack : Prop :=
  ∀ (s : State) (w : Command), s.owner = some .main → s.params.atomicScope = .shadowOnly → s.pendIrq = some w →
    stepWith true s = runCommand w (grant .irq w (suspendMain s)) ∧
      (∀ i, decode w = .legal i → stepWith true s =
        exec i { s with owner := some .irq, cmd := w, pendIrq := none,
                        mainCtx := some ⟨s.ser, s.serKind, s.serVal, s.cmd⟩ }) ∧
      Gives (stepWith true s) fun t =>
        t.owner = some .main ∧ t.mainCtx = none ∧ t.ser = s.ser ∧ t.serKind = s.serKind ∧ t.serVal = s.serVal ∧
          t.cmd = s.cmd ∧ t.pendIrq = none ∧ t.pendMain = s.pendMain ∧
          (∃ v, t.answers = s.answers ++ [⟨.irq, v⟩]) ∧
          ((t.csN = s.csN ∧ t.trace = s.trace) ∨
            ∃ k, t.csN = .drive true ∧ t.trace = s.trace ++ frame s.params s.cc k (t.shadow k))

/-- R87, R88, with the order of R65 and R29: while MAIN's frame goes on, each action emits the event its position names, with
the captured value whatever the shadow now holds, moves to the position that follows, drives chip-select where the event
does, and changes nothing else. When the frame is over (pm of R84) the action completes MAIN's operation and does nothing
else. That each event and the completion are one action each is log entry 5. -/
def Obligations.ResumedFrameSendsTheCapturedValue : Prop :=
  ∀ s : State, s.owner = some .main →
    (s.ser ≠ .idle → stepWith false s = .next { s with
      ser := s.ser.following s.params s.cc
      csN := match s.ser with
        | .cslo => .drive false
        | .cshi => .drive true
        | _ => s.csN
      trace := s.trace ++ [match s.ser with
        | .pre => .txnBegin 4000000 .msbFirst .mode1
        | .cslo => .pin .cs false
        | .cmd _ => .xfer (writeCmd s.serKind)
        | .data ic => .xfer (s.serVal.extractLsb' (8 * ic) 8)
        | .cshi => .pin .cs true
        | .post | .idle => .txnEnd] }) ∧
      (s.ser = .idle → Gives (stepWith false s) (OnlyAnswered .main none s))

/-! The informative observer (R262). -/

/-- R262, R68, R52: a frame puts each data byte into the addressed register of the chip it was sent for, whatever the
chain held before, and leaves the other registers alone. -/
def Obligations.FrameReachesEachChip : Prop :=
  ∀ (icReset : Nat → BitVec 3 → Byte) (c : Chain) (p : Params) (cc : BitVec 3) (k : Kind) (v : Word),
    c.OfLength cc.toNat →
      let c' := observeAll icReset c (frame p cc k v)
      c'.OfLength cc.toNat ∧ c'.cs = .drive true ∧
        ∀ j, j < cc.toNat → ∀ a, c'.device j a = if a = addr k then chipByte v j else c.device j a

/-- R256: the race. When an IRQ frame starts inside the chip-select window of a MAIN frame, the devices end as if only the
IRQ frame had been sent. -/
def Obligations.InterruptedFrameIsLostOnTheWire : Prop :=
  ∀ (icReset : Nat → BitVec 3 → Byte) (c : Chain) (p : Params) (cc : BitVec 3) (k k' : Kind) (v v' : Word) (m : Nat),
    c.OfLength cc.toNat → .pin .cs false ∈ (frame p cc k v).take m → .pin .cs true ∉ (frame p cc k v).take m →
      let c' := observeAll icReset c ((frame p cc k v).take m ++ frame p cc k' v' ++ (frame p cc k v).drop m)
      ∀ j, j < cc.toNat → ∀ a, c'.device j a = if a = addr k' then chipByte v' j else c.device j a
end

