-- ==== Sys2Proof/Laws/State.lean ====
section
/-! SUPPORT. The small lemmas of State: for each update of the state, what each field is after it, so that no later proof
unfolds a record update. -/

namespace Sys2Proof.Machine

/-! emit -/

@[simp] theorem emit_params (e : Event) (s : State) : (emit e s).params = s.params := rfl
@[simp] theorem emit_ctrl (e : Event) (s : State) : (emit e s).ctrl = s.ctrl := rfl
@[simp] theorem emit_inputMap (e : Event) (s : State) : (emit e s).inputMap = s.inputMap := rfl
@[simp] theorem emit_boolOp (e : Event) (s : State) : (emit e s).boolOp = s.boolOp := rfl
@[simp] theorem emit_cc (e : Event) (s : State) : (emit e s).cc = s.cc := rfl
@[simp] theorem emit_initialized (e : Event) (s : State) : (emit e s).initialized = s.initialized := rfl
@[simp] theorem emit_csN (e : Event) (s : State) : (emit e s).csN = s.csN := rfl
@[simp] theorem emit_rstN (e : Event) (s : State) : (emit e s).rstN = s.rstN := rfl
@[simp] theorem emit_ser (e : Event) (s : State) : (emit e s).ser = s.ser := rfl
@[simp] theorem emit_serKind (e : Event) (s : State) : (emit e s).serKind = s.serKind := rfl
@[simp] theorem emit_serVal (e : Event) (s : State) : (emit e s).serVal = s.serVal := rfl
@[simp] theorem emit_owner (e : Event) (s : State) : (emit e s).owner = s.owner := rfl
@[simp] theorem emit_cmd (e : Event) (s : State) : (emit e s).cmd = s.cmd := rfl
@[simp] theorem emit_mainCtx (e : Event) (s : State) : (emit e s).mainCtx = s.mainCtx := rfl
@[simp] theorem emit_pendMain (e : Event) (s : State) : (emit e s).pendMain = s.pendMain := rfl
@[simp] theorem emit_pendIrq (e : Event) (s : State) : (emit e s).pendIrq = s.pendIrq := rfl
@[simp] theorem emit_inMain (e : Event) (s : State) : (emit e s).inMain = s.inMain := rfl
@[simp] theorem emit_inIrq (e : Event) (s : State) : (emit e s).inIrq = s.inIrq := rfl
@[simp] theorem emit_sched (e : Event) (s : State) : (emit e s).sched = s.sched := rfl
@[simp] theorem emit_drawn (e : Event) (s : State) : (emit e s).drawn = s.drawn := rfl
@[simp] theorem emit_faults (e : Event) (s : State) : (emit e s).faults = s.faults := rfl
@[simp] theorem emit_answers (e : Event) (s : State) : (emit e s).answers = s.answers := rfl
@[simp] theorem emit_trace (e : Event) (s : State) : (emit e s).trace = s.trace ++ [e] := rfl

/-! driveCs -/

@[simp] theorem driveCs_params (l : Bool) (s : State) : (driveCs l s).params = s.params := rfl
@[simp] theorem driveCs_ctrl (l : Bool) (s : State) : (driveCs l s).ctrl = s.ctrl := rfl
@[simp] theorem driveCs_inputMap (l : Bool) (s : State) : (driveCs l s).inputMap = s.inputMap := rfl
@[simp] theorem driveCs_boolOp (l : Bool) (s : State) : (driveCs l s).boolOp = s.boolOp := rfl
@[simp] theorem driveCs_cc (l : Bool) (s : State) : (driveCs l s).cc = s.cc := rfl
@[simp] theorem driveCs_initialized (l : Bool) (s : State) : (driveCs l s).initialized = s.initialized := rfl
@[simp] theorem driveCs_csN (l : Bool) (s : State) : (driveCs l s).csN = .drive l := rfl
@[simp] theorem driveCs_rstN (l : Bool) (s : State) : (driveCs l s).rstN = s.rstN := rfl
@[simp] theorem driveCs_ser (l : Bool) (s : State) : (driveCs l s).ser = s.ser := rfl
@[simp] theorem driveCs_serKind (l : Bool) (s : State) : (driveCs l s).serKind = s.serKind := rfl
@[simp] theorem driveCs_serVal (l : Bool) (s : State) : (driveCs l s).serVal = s.serVal := rfl
@[simp] theorem driveCs_owner (l : Bool) (s : State) : (driveCs l s).owner = s.owner := rfl
@[simp] theorem driveCs_cmd (l : Bool) (s : State) : (driveCs l s).cmd = s.cmd := rfl
@[simp] theorem driveCs_mainCtx (l : Bool) (s : State) : (driveCs l s).mainCtx = s.mainCtx := rfl
@[simp] theorem driveCs_pendMain (l : Bool) (s : State) : (driveCs l s).pendMain = s.pendMain := rfl
@[simp] theorem driveCs_pendIrq (l : Bool) (s : State) : (driveCs l s).pendIrq = s.pendIrq := rfl
@[simp] theorem driveCs_inMain (l : Bool) (s : State) : (driveCs l s).inMain = s.inMain := rfl
@[simp] theorem driveCs_inIrq (l : Bool) (s : State) : (driveCs l s).inIrq = s.inIrq := rfl
@[simp] theorem driveCs_sched (l : Bool) (s : State) : (driveCs l s).sched = s.sched := rfl
@[simp] theorem driveCs_drawn (l : Bool) (s : State) : (driveCs l s).drawn = s.drawn := rfl
@[simp] theorem driveCs_faults (l : Bool) (s : State) : (driveCs l s).faults = s.faults := rfl
@[simp] theorem driveCs_answers (l : Bool) (s : State) : (driveCs l s).answers = s.answers := rfl
@[simp] theorem driveCs_trace (l : Bool) (s : State) : (driveCs l s).trace = s.trace ++ [.pin .cs l] := rfl

/-! driveRst -/

@[simp] theorem driveRst_params (l : Bool) (s : State) : (driveRst l s).params = s.params := rfl
@[simp] theorem driveRst_ctrl (l : Bool) (s : State) : (driveRst l s).ctrl = s.ctrl := rfl
@[simp] theorem driveRst_inputMap (l : Bool) (s : State) : (driveRst l s).inputMap = s.inputMap := rfl
@[simp] theorem driveRst_boolOp (l : Bool) (s : State) : (driveRst l s).boolOp = s.boolOp := rfl
@[simp] theorem driveRst_cc (l : Bool) (s : State) : (driveRst l s).cc = s.cc := rfl
@[simp] theorem driveRst_initialized (l : Bool) (s : State) : (driveRst l s).initialized = s.initialized := rfl
@[simp] theorem driveRst_csN (l : Bool) (s : State) : (driveRst l s).csN = s.csN := rfl
@[simp] theorem driveRst_rstN (l : Bool) (s : State) : (driveRst l s).rstN = .drive l := rfl
@[simp] theorem driveRst_ser (l : Bool) (s : State) : (driveRst l s).ser = s.ser := rfl
@[simp] theorem driveRst_serKind (l : Bool) (s : State) : (driveRst l s).serKind = s.serKind := rfl
@[simp] theorem driveRst_serVal (l : Bool) (s : State) : (driveRst l s).serVal = s.serVal := rfl
@[simp] theorem driveRst_owner (l : Bool) (s : State) : (driveRst l s).owner = s.owner := rfl
@[simp] theorem driveRst_cmd (l : Bool) (s : State) : (driveRst l s).cmd = s.cmd := rfl
@[simp] theorem driveRst_mainCtx (l : Bool) (s : State) : (driveRst l s).mainCtx = s.mainCtx := rfl
@[simp] theorem driveRst_pendMain (l : Bool) (s : State) : (driveRst l s).pendMain = s.pendMain := rfl
@[simp] theorem driveRst_pendIrq (l : Bool) (s : State) : (driveRst l s).pendIrq = s.pendIrq := rfl
@[simp] theorem driveRst_inMain (l : Bool) (s : State) : (driveRst l s).inMain = s.inMain := rfl
@[simp] theorem driveRst_inIrq (l : Bool) (s : State) : (driveRst l s).inIrq = s.inIrq := rfl
@[simp] theorem driveRst_sched (l : Bool) (s : State) : (driveRst l s).sched = s.sched := rfl
@[simp] theorem driveRst_drawn (l : Bool) (s : State) : (driveRst l s).drawn = s.drawn := rfl
@[simp] theorem driveRst_faults (l : Bool) (s : State) : (driveRst l s).faults = s.faults := rfl
@[simp] theorem driveRst_answers (l : Bool) (s : State) : (driveRst l s).answers = s.answers := rfl
@[simp] theorem driveRst_trace (l : Bool) (s : State) : (driveRst l s).trace = s.trace ++ [.pin .rst l] := rfl

/-! openPin -/

@[simp] theorem openPin_params (p : Pin) (s : State) : (openPin p s).params = s.params := rfl
@[simp] theorem openPin_ctrl (p : Pin) (s : State) : (openPin p s).ctrl = s.ctrl := rfl
@[simp] theorem openPin_inputMap (p : Pin) (s : State) : (openPin p s).inputMap = s.inputMap := rfl
@[simp] theorem openPin_boolOp (p : Pin) (s : State) : (openPin p s).boolOp = s.boolOp := rfl
@[simp] theorem openPin_cc (p : Pin) (s : State) : (openPin p s).cc = s.cc := rfl
@[simp] theorem openPin_initialized (p : Pin) (s : State) : (openPin p s).initialized = s.initialized := rfl
@[simp] theorem openPin_csN (p : Pin) (s : State) : (openPin p s).csN = s.csN := rfl
@[simp] theorem openPin_rstN (p : Pin) (s : State) : (openPin p s).rstN = s.rstN := rfl
@[simp] theorem openPin_ser (p : Pin) (s : State) : (openPin p s).ser = s.ser := rfl
@[simp] theorem openPin_serKind (p : Pin) (s : State) : (openPin p s).serKind = s.serKind := rfl
@[simp] theorem openPin_serVal (p : Pin) (s : State) : (openPin p s).serVal = s.serVal := rfl
@[simp] theorem openPin_owner (p : Pin) (s : State) : (openPin p s).owner = s.owner := rfl
@[simp] theorem openPin_cmd (p : Pin) (s : State) : (openPin p s).cmd = s.cmd := rfl
@[simp] theorem openPin_mainCtx (p : Pin) (s : State) : (openPin p s).mainCtx = s.mainCtx := rfl
@[simp] theorem openPin_pendMain (p : Pin) (s : State) : (openPin p s).pendMain = s.pendMain := rfl
@[simp] theorem openPin_pendIrq (p : Pin) (s : State) : (openPin p s).pendIrq = s.pendIrq := rfl
@[simp] theorem openPin_inMain (p : Pin) (s : State) : (openPin p s).inMain = s.inMain := rfl
@[simp] theorem openPin_inIrq (p : Pin) (s : State) : (openPin p s).inIrq = s.inIrq := rfl
@[simp] theorem openPin_sched (p : Pin) (s : State) : (openPin p s).sched = s.sched := rfl
@[simp] theorem openPin_drawn (p : Pin) (s : State) : (openPin p s).drawn = s.drawn := rfl
@[simp] theorem openPin_faults (p : Pin) (s : State) : (openPin p s).faults = s.faults := rfl
@[simp] theorem openPin_answers (p : Pin) (s : State) : (openPin p s).answers = s.answers := rfl
@[simp] theorem openPin_trace (p : Pin) (s : State) : (openPin p s).trace = s.trace ++ [.pinOut p] := rfl

/-! setShadow -/

@[simp] theorem setShadow_params (k : Kind) (v : Word) (s : State) : (setShadow k v s).params = s.params := by cases k <;> rfl
@[simp] theorem setShadow_ctrl (k : Kind) (v : Word) (s : State) : (setShadow k v s).ctrl = if k = .ctrl then v else s.ctrl := by cases k <;> rfl
@[simp] theorem setShadow_inputMap (k : Kind) (v : Word) (s : State) : (setShadow k v s).inputMap = if k = .map then v else s.inputMap := by cases k <;> rfl
@[simp] theorem setShadow_boolOp (k : Kind) (v : Word) (s : State) : (setShadow k v s).boolOp = if k = .bool then v else s.boolOp := by cases k <;> rfl
@[simp] theorem setShadow_cc (k : Kind) (v : Word) (s : State) : (setShadow k v s).cc = s.cc := by cases k <;> rfl
@[simp] theorem setShadow_initialized (k : Kind) (v : Word) (s : State) : (setShadow k v s).initialized = s.initialized := by cases k <;> rfl
@[simp] theorem setShadow_csN (k : Kind) (v : Word) (s : State) : (setShadow k v s).csN = s.csN := by cases k <;> rfl
@[simp] theorem setShadow_rstN (k : Kind) (v : Word) (s : State) : (setShadow k v s).rstN = s.rstN := by cases k <;> rfl
@[simp] theorem setShadow_ser (k : Kind) (v : Word) (s : State) : (setShadow k v s).ser = s.ser := by cases k <;> rfl
@[simp] theorem setShadow_serKind (k : Kind) (v : Word) (s : State) : (setShadow k v s).serKind = s.serKind := by cases k <;> rfl
@[simp] theorem setShadow_serVal (k : Kind) (v : Word) (s : State) : (setShadow k v s).serVal = s.serVal := by cases k <;> rfl
@[simp] theorem setShadow_owner (k : Kind) (v : Word) (s : State) : (setShadow k v s).owner = s.owner := by cases k <;> rfl
@[simp] theorem setShadow_cmd (k : Kind) (v : Word) (s : State) : (setShadow k v s).cmd = s.cmd := by cases k <;> rfl
@[simp] theorem setShadow_mainCtx (k : Kind) (v : Word) (s : State) : (setShadow k v s).mainCtx = s.mainCtx := by cases k <;> rfl
@[simp] theorem setShadow_pendMain (k : Kind) (v : Word) (s : State) : (setShadow k v s).pendMain = s.pendMain := by cases k <;> rfl
@[simp] theorem setShadow_pendIrq (k : Kind) (v : Word) (s : State) : (setShadow k v s).pendIrq = s.pendIrq := by cases k <;> rfl
@[simp] theorem setShadow_inMain (k : Kind) (v : Word) (s : State) : (setShadow k v s).inMain = s.inMain := by cases k <;> rfl
@[simp] theorem setShadow_inIrq (k : Kind) (v : Word) (s : State) : (setShadow k v s).inIrq = s.inIrq := by cases k <;> rfl
@[simp] theorem setShadow_sched (k : Kind) (v : Word) (s : State) : (setShadow k v s).sched = s.sched := by cases k <;> rfl
@[simp] theorem setShadow_drawn (k : Kind) (v : Word) (s : State) : (setShadow k v s).drawn = s.drawn := by cases k <;> rfl
@[simp] theorem setShadow_faults (k : Kind) (v : Word) (s : State) : (setShadow k v s).faults = s.faults := by cases k <;> rfl
@[simp] theorem setShadow_answers (k : Kind) (v : Word) (s : State) : (setShadow k v s).answers = s.answers := by cases k <;> rfl
@[simp] theorem setShadow_trace (k : Kind) (v : Word) (s : State) : (setShadow k v s).trace = s.trace := by cases k <;> rfl

/-! beginFrame -/

@[simp] theorem beginFrame_params (k : Kind) (v : Word) (s : State) : (beginFrame k v s).params = s.params := rfl
@[simp] theorem beginFrame_ctrl (k : Kind) (v : Word) (s : State) : (beginFrame k v s).ctrl = s.ctrl := rfl
@[simp] theorem beginFrame_inputMap (k : Kind) (v : Word) (s : State) : (beginFrame k v s).inputMap = s.inputMap := rfl
@[simp] theorem beginFrame_boolOp (k : Kind) (v : Word) (s : State) : (beginFrame k v s).boolOp = s.boolOp := rfl
@[simp] theorem beginFrame_cc (k : Kind) (v : Word) (s : State) : (beginFrame k v s).cc = s.cc := rfl
@[simp] theorem beginFrame_initialized (k : Kind) (v : Word) (s : State) : (beginFrame k v s).initialized = s.initialized := rfl
@[simp] theorem beginFrame_csN (k : Kind) (v : Word) (s : State) : (beginFrame k v s).csN = s.csN := rfl
@[simp] theorem beginFrame_rstN (k : Kind) (v : Word) (s : State) : (beginFrame k v s).rstN = s.rstN := rfl
@[simp] theorem beginFrame_ser (k : Kind) (v : Word) (s : State) : (beginFrame k v s).ser = frameStart s.params := rfl
@[simp] theorem beginFrame_serKind (k : Kind) (v : Word) (s : State) : (beginFrame k v s).serKind = k := rfl
@[simp] theorem beginFrame_serVal (k : Kind) (v : Word) (s : State) : (beginFrame k v s).serVal = v := rfl
@[simp] theorem beginFrame_owner (k : Kind) (v : Word) (s : State) : (beginFrame k v s).owner = some s.requester := rfl
@[simp] theorem beginFrame_cmd (k : Kind) (v : Word) (s : State) : (beginFrame k v s).cmd = s.cmd := rfl
@[simp] theorem beginFrame_mainCtx (k : Kind) (v : Word) (s : State) : (beginFrame k v s).mainCtx = s.mainCtx := rfl
@[simp] theorem beginFrame_pendMain (k : Kind) (v : Word) (s : State) : (beginFrame k v s).pendMain = s.pendMain := rfl
@[simp] theorem beginFrame_pendIrq (k : Kind) (v : Word) (s : State) : (beginFrame k v s).pendIrq = s.pendIrq := rfl
@[simp] theorem beginFrame_inMain (k : Kind) (v : Word) (s : State) : (beginFrame k v s).inMain = s.inMain := rfl
@[simp] theorem beginFrame_inIrq (k : Kind) (v : Word) (s : State) : (beginFrame k v s).inIrq = s.inIrq := rfl
@[simp] theorem beginFrame_sched (k : Kind) (v : Word) (s : State) : (beginFrame k v s).sched = s.sched := rfl
@[simp] theorem beginFrame_drawn (k : Kind) (v : Word) (s : State) : (beginFrame k v s).drawn = s.drawn := rfl
@[simp] theorem beginFrame_faults (k : Kind) (v : Word) (s : State) : (beginFrame k v s).faults = s.faults := rfl
@[simp] theorem beginFrame_answers (k : Kind) (v : Word) (s : State) : (beginFrame k v s).answers = s.answers := rfl
@[simp] theorem beginFrame_trace (k : Kind) (v : Word) (s : State) : (beginFrame k v s).trace = s.trace := rfl

/-! suspendMain -/

@[simp] theorem suspendMain_params (s : State) : (suspendMain s).params = s.params := rfl
@[simp] theorem suspendMain_ctrl (s : State) : (suspendMain s).ctrl = s.ctrl := rfl
@[simp] theorem suspendMain_inputMap (s : State) : (suspendMain s).inputMap = s.inputMap := rfl
@[simp] theorem suspendMain_boolOp (s : State) : (suspendMain s).boolOp = s.boolOp := rfl
@[simp] theorem suspendMain_cc (s : State) : (suspendMain s).cc = s.cc := rfl
@[simp] theorem suspendMain_initialized (s : State) : (suspendMain s).initialized = s.initialized := rfl
@[simp] theorem suspendMain_csN (s : State) : (suspendMain s).csN = s.csN := rfl
@[simp] theorem suspendMain_rstN (s : State) : (suspendMain s).rstN = s.rstN := rfl
@[simp] theorem suspendMain_ser (s : State) : (suspendMain s).ser = s.ser := rfl
@[simp] theorem suspendMain_serKind (s : State) : (suspendMain s).serKind = s.serKind := rfl
@[simp] theorem suspendMain_serVal (s : State) : (suspendMain s).serVal = s.serVal := rfl
@[simp] theorem suspendMain_owner (s : State) : (suspendMain s).owner = s.owner := rfl
@[simp] theorem suspendMain_cmd (s : State) : (suspendMain s).cmd = s.cmd := rfl
@[simp] theorem suspendMain_mainCtx (s : State) : (suspendMain s).mainCtx = some ⟨s.ser, s.serKind, s.serVal, s.cmd⟩ := rfl
@[simp] theorem suspendMain_pendMain (s : State) : (suspendMain s).pendMain = s.pendMain := rfl
@[simp] theorem suspendMain_pendIrq (s : State) : (suspendMain s).pendIrq = s.pendIrq := rfl
@[simp] theorem suspendMain_inMain (s : State) : (suspendMain s).inMain = s.inMain := rfl
@[simp] theorem suspendMain_inIrq (s : State) : (suspendMain s).inIrq = s.inIrq := rfl
@[simp] theorem suspendMain_sched (s : State) : (suspendMain s).sched = s.sched := rfl
@[simp] theorem suspendMain_drawn (s : State) : (suspendMain s).drawn = s.drawn := rfl
@[simp] theorem suspendMain_faults (s : State) : (suspendMain s).faults = s.faults := rfl
@[simp] theorem suspendMain_answers (s : State) : (suspendMain s).answers = s.answers := rfl
@[simp] theorem suspendMain_trace (s : State) : (suspendMain s).trace = s.trace := rfl

/-! grant -/

@[simp] theorem grant_params (p : Port) (w : Command) (s : State) : (grant p w s).params = s.params := by cases p <;> rfl
@[simp] theorem grant_ctrl (p : Port) (w : Command) (s : State) : (grant p w s).ctrl = s.ctrl := by cases p <;> rfl
@[simp] theorem grant_inputMap (p : Port) (w : Command) (s : State) : (grant p w s).inputMap = s.inputMap := by cases p <;> rfl
@[simp] theorem grant_boolOp (p : Port) (w : Command) (s : State) : (grant p w s).boolOp = s.boolOp := by cases p <;> rfl
@[simp] theorem grant_cc (p : Port) (w : Command) (s : State) : (grant p w s).cc = s.cc := by cases p <;> rfl
@[simp] theorem grant_initialized (p : Port) (w : Command) (s : State) : (grant p w s).initialized = s.initialized := by cases p <;> rfl
@[simp] theorem grant_csN (p : Port) (w : Command) (s : State) : (grant p w s).csN = s.csN := by cases p <;> rfl
@[simp] theorem grant_rstN (p : Port) (w : Command) (s : State) : (grant p w s).rstN = s.rstN := by cases p <;> rfl
@[simp] theorem grant_ser (p : Port) (w : Command) (s : State) : (grant p w s).ser = s.ser := by cases p <;> rfl
@[simp] theorem grant_serKind (p : Port) (w : Command) (s : State) : (grant p w s).serKind = s.serKind := by cases p <;> rfl
@[simp] theorem grant_serVal (p : Port) (w : Command) (s : State) : (grant p w s).serVal = s.serVal := by cases p <;> rfl
@[simp] theorem grant_owner (p : Port) (w : Command) (s : State) : (grant p w s).owner = some p := by cases p <;> rfl
@[simp] theorem grant_cmd (p : Port) (w : Command) (s : State) : (grant p w s).cmd = w := by cases p <;> rfl
@[simp] theorem grant_mainCtx (p : Port) (w : Command) (s : State) : (grant p w s).mainCtx = s.mainCtx := by cases p <;> rfl
@[simp] theorem grant_pendMain (p : Port) (w : Command) (s : State) : (grant p w s).pendMain = if p = .main then none else s.pendMain := by cases p <;> rfl
@[simp] theorem grant_pendIrq (p : Port) (w : Command) (s : State) : (grant p w s).pendIrq = if p = .irq then none else s.pendIrq := by cases p <;> rfl
@[simp] theorem grant_inMain (p : Port) (w : Command) (s : State) : (grant p w s).inMain = s.inMain := by cases p <;> rfl
@[simp] theorem grant_inIrq (p : Port) (w : Command) (s : State) : (grant p w s).inIrq = s.inIrq := by cases p <;> rfl
@[simp] theorem grant_sched (p : Port) (w : Command) (s : State) : (grant p w s).sched = s.sched := by cases p <;> rfl
@[simp] theorem grant_drawn (p : Port) (w : Command) (s : State) : (grant p w s).drawn = s.drawn := by cases p <;> rfl
@[simp] theorem grant_faults (p : Port) (w : Command) (s : State) : (grant p w s).faults = s.faults := by cases p <;> rfl
@[simp] theorem grant_answers (p : Port) (w : Command) (s : State) : (grant p w s).answers = s.answers := by cases p <;> rfl
@[simp] theorem grant_trace (p : Port) (w : Command) (s : State) : (grant p w s).trace = s.trace := by cases p <;> rfl

/-! The shadows by kind. -/

@[simp] theorem shadow_setShadow_same (k : Kind) (v : Word) (s : State) : (setShadow k v s).shadow k = v := by
  cases k <;> rfl

@[simp] theorem shadow_setShadow_other {k j : Kind} (h : j ≠ k) (v : Word) (s : State) :
    (setShadow k v s).shadow j = s.shadow j := by
  cases k <;> cases j <;> first | rfl | exact absurd rfl h

@[simp] theorem requester_of_owner {s : State} {p : Port} (h : s.owner = some p) : s.requester = p := by
  simp [State.requester, h]

/-- Two states with the same shadow fields have the same shadows. -/
theorem shadow_congr {s t : State} (hc : t.ctrl = s.ctrl) (hm : t.inputMap = s.inputMap) (hb : t.boolOp = s.boolOp)
    (k : Kind) : t.shadow k = s.shadow k := by
  cases k <;> assumption

end Sys2Proof.Machine
end

