-- ==== Sys2Proof/Laws/Ops.lean ====
section
/-! SUPPORT. One lemma per shared operation, saying everything it can do: the serializer in closed form, completion,
faults, `Update`, and the prologue. -/

namespace Sys2Proof.Machine

/-! Masks. -/

theorem masked_and (cc : BitVec 3) (v : Word) : Masked cc (v &&& allMask cc) := by
  unfold Masked
  ext j hj
  simp only [BitVec.getElem_and, BitVec.getElem_not]
  cases v[j] <;> cases (allMask cc)[j] <;> simp

theorem masked_allMask (cc : BitVec 3) : Masked cc (allMask cc) := by
  have h := masked_and cc (allMask cc)
  rwa [BitVec.and_self] at h

theorem masked_zero (cc : BitVec 3) : Masked cc 0 := by simp [Masked]

theorem and_allMask_of_masked {cc : BitVec 3} {v : Word} (h : Masked cc v) : v &&& allMask cc = v := by
  ext j hj
  have hb : (v &&& ~~~allMask cc)[j] = false := by rw [show v &&& ~~~allMask cc = 0 from h]; simp
  simp only [BitVec.getElem_and, BitVec.getElem_not] at hb ⊢
  cases hv : v[j] <;> simp_all

/-! The serializer (R65, R66). -/

theorem frameBytes_succ (n : Nat) (k : Kind) (v : Word) :
    frameBytes (n + 1) k v = writeCmd k :: chipByte v n :: frameBytes n k v := by
  simp [frameBytes, List.range_succ]

theorem frameBytes_length (n : Nat) (k : Kind) (v : Word) : (frameBytes n k v).length = 2 * n := by
  induction n with
  | zero => rfl
  | succ n ih => rw [frameBytes_succ]; simp only [List.length_cons, ih]; omega

/-- The chip loop only appends its transfers to the trace. -/
theorem sendChips_eq (k : Kind) (v : Word) (n : Nat) (s : State) :
    sendChips k v n s = { s with trace := s.trace ++ (frameBytes n k v).map .xfer } := by
  induction n generalizing s with
  | zero => simp [sendChips, frameBytes]
  | succ n ih => simp [sendChips, ih, frameBytes_succ, emit]

/-- `ChainWrite` in closed form: the frame joins the trace, chip-select ends deasserted, the serializer ends at rest. -/
theorem chainWrite_eq (k : Kind) (v : Word) (s : State) :
    chainWrite k v s =
      { s with trace := s.trace ++ frame s.params s.cc k v, csN := .drive true, ser := .idle, serKind := k, serVal := v } := by
  cases h : s.params.reconfigEachTxn <;>
    simp [chainWrite, sendChips_eq, frame, driveCs, emit, h, Config.csActive]

/-! Completion and faults. -/

/-- `finish` when the operation interrupted MAIN: MAIN has the block back (R86). -/
theorem finish_interrupted {s : State} {c : MainCtx} (v : Option Word) (h : s.interrupted = some c) :
    finish v s = { s with answers := s.answers ++ [⟨s.requester, v⟩], ser := c.ser, serKind := c.serKind,
                          serVal := c.serVal, cmd := c.cmd, owner := some .main, mainCtx := none } := by
  simp only [finish, release, State.interrupted] at h ⊢
  rw [h]

/-- `finish` otherwise: nobody owns the block. -/
theorem finish_idle {s : State} (v : Option Word) (h : s.interrupted = none) :
    finish v s = { s with answers := s.answers ++ [⟨s.requester, v⟩], owner := none } := by
  simp only [finish, release, State.interrupted] at h ⊢
  rw [h]

/-- The fields no completion touches. -/
theorem finish_keeps (v : Option Word) (s : State) :
    (finish v s).params = s.params ∧ (finish v s).ctrl = s.ctrl ∧ (finish v s).inputMap = s.inputMap ∧
      (finish v s).boolOp = s.boolOp ∧ (finish v s).cc = s.cc ∧ (finish v s).initialized = s.initialized ∧
      (finish v s).csN = s.csN ∧ (finish v s).rstN = s.rstN ∧ (finish v s).pendMain = s.pendMain ∧
      (finish v s).pendIrq = s.pendIrq ∧ (finish v s).inMain = s.inMain ∧ (finish v s).inIrq = s.inIrq ∧
      (finish v s).sched = s.sched ∧ (finish v s).drawn = s.drawn ∧ (finish v s).faults = s.faults ∧
      (finish v s).trace = s.trace ∧ (finish v s).answers = s.answers ++ [⟨s.requester, v⟩] := by
  cases h : s.interrupted with
  | none => rw [finish_idle v h]; simp
  | some c => rw [finish_interrupted v h]; simp

/-- A completion hands the block back as R86 and R12 say. -/
theorem finish_handsBack {p : Port} {s : State} (v : Option Word) (hp : s.requester = p) :
    HandedBack p s.ser s.serKind s.serVal s (finish v s) := by
  subst hp
  rcases ho : s.owner with _ | _ | _ <;> cases hc : s.mainCtx <;>
    simp [State.requester, HandedBack, finish, release, State.interrupted, ho, hc]

/-- Recording a fault adds the record to the set `faults` and changes nothing else (R32). -/
theorem recordFault_spec (r : FaultRecord) (s : State) :
    ∃ fs, recordFault r s = { s with faults := fs } ∧ s.faults <+: fs ∧ (∀ q, q ∈ fs ↔ q ∈ s.faults ∨ q = r) ∧
      (s.faults.Nodup → fs.Nodup) := by
  unfold recordFault
  split
  · rename_i hr
    refine ⟨s.faults, rfl, List.prefix_refl _, fun q => ⟨.inl, ?_⟩, id⟩
    rintro (h | rfl) <;> assumption
  · rename_i hr
    refine ⟨s.faults ++ [r], rfl, List.prefix_append _ _, by simp, fun h => ?_⟩
    rw [List.nodup_append]
    exact ⟨h, by simp, by simp; exact fun a ha e => hr (e ▸ ha)⟩

/-! `Update` (R13). -/

/-- The value `Update(k, f)` stores. -/
abbrev updated (k : Kind) (f : Word → Word) (s : State) : Word := f (s.shadow k) &&& allMask s.cc

/-- The state when the frame of a register write is out and the operation has still to complete. -/
def writtenState (k : Kind) (v : Word) (s : State) : State :=
  { setShadow k v s with
    trace := s.trace ++ frame s.params s.cc k v, csN := .drive true, ser := .idle, serKind := k, serVal := v }

/-- `Update` by an operation that holds the arbiter for its frame. -/
theorem update_whole {s : State} (k : Kind) (f : Word → Word) (h : s.wholeFrame = true) :
    update k f s = complete (writtenState k (updated k f s) s) := by
  have hw : (setShadow k (updated k f s) s).wholeFrame = true := by
    simpa [State.wholeFrame, State.requester] using h
  simp only [update]
  rw [if_pos hw, chainWrite_eq]
  simp [writtenState]

/-- `Update` by MAIN under SHADOW_ONLY. -/
theorem update_split {s : State} (k : Kind) (f : Word → Word) (h : s.wholeFrame = false) :
    update k f s = beginFrame k (updated k f s) (setShadow k (updated k f s) s) := by
  have hw : ¬(setShadow k (updated k f s) s).wholeFrame = true := by
    simpa [State.wholeFrame, State.requester] using h
  simp only [update]
  rw [if_neg hw]

end Sys2Proof.Machine
end

