-- ==== Sys2Proof/Laws/Exec.lean ====
section
/-! SUPPORT. What an operation can do, said once: the inversion of `exec`, and of the arbiter's actions. -/

namespace Sys2Proof.Machine

/-- The state `setup` leaves, in closed form. -/
def setupState (n : Word) (s : State) : State :=
  { s with
    cc := clampChips n, initialized := true, inputMap := allMask (clampChips n), boolOp := andAll s.params (clampChips n)
    ctrl := 0, csN := .drive true, rstN := if s.params.hasRst then .drive true else s.rstN
    ser := .idle, serKind := .ctrl, serVal := 0
    trace := s.trace ++ (openingEvents s.params ++ (frame s.params (clampChips n) .map (allMask (clampChips n)) ++
      (frame s.params (clampChips n) .bool (andAll s.params (clampChips n)) ++ frame s.params (clampChips n) .ctrl 0))) }

/-- The state `reset` leaves when there is a reset line, in closed form. -/
def resetState (s : State) : State :=
  { s with ctrl := 0, rstN := .drive true, trace := s.trace ++ [.pin .rst false, .delay 200, .pin .rst true] }

theorem openLines_eq (s : State) :
    openLines s = { s with
      csN := .drive true, rstN := if s.params.hasRst then .drive true else s.rstN
      trace := s.trace ++ openingEvents s.params } := by
  cases h : s.params.hasRst <;>
    simp [openLines, openingEvents, driveCs, driveRst, openPin, emit, h, Config.csActive, Config.rstActive]

theorem execSetup_main {s : State} (n : Word) (h : s.requester = .main) :
    execSetup n s = .next (complete (setupState n s)) := by
  simp [execSetup, onMainOnly, h, openLines_eq, writeDefault, chainWrite_eq, setupState, setShadow, List.append_assoc]

theorem pulseReset_eq (s : State) :
    setShadow .ctrl 0 (pulseReset s) = resetState s := by
  simp [pulseReset, driveRst, emit, setShadow, resetState, Config.rstActive, Config.resetPulseMs]

/-- The opcode group of the operations on each register (R101). -/
def Kind.group : Kind → BitVec 4
  | .ctrl => 1
  | .map => 2
  | .bool => 3

/-- Everything an operation can do. -/
inductive Effect (s : State) : Instr → State → Prop where
  | fault (i : Instr) (code : FaultCode) : Effect s i (raiseFault code s)
  | ignored (i : Instr) : s.initialized = true → i.format = .index → Effect s i (complete s)
  | write (i : Instr) (k : Kind) (f : Word → Word) : s.initialized = true →
      i.opcode.extractLsb' 4 4 = k.group → Effect s i (update k f s)
  | answer (i : Instr) (v : Word) : s.initialized = true → i.opcode.extractLsb' 4 4 = 4 → Effect s i (respond v s)
  | setup (n : Word) : s.requester = .main → Effect s (.setup n) (complete (setupState n s))
  | noLine : s.initialized = true → s.requester = .main → s.params.hasRst = false → Effect s .reset (complete s)
  | pulse : s.initialized = true → s.requester = .main → s.params.hasRst = true →
      Effect s .reset (complete (resetState s))

theorem indexOp_effect {i : Instr} {k : Kind} {c : Word} {f : Word → Word} {s : State} (hi : i.format = .index)
    (hg : i.opcode.extractLsb' 4 4 = k.group) :
    ∃ t, indexOp k c f s = .next t ∧ Effect s i t := by
  refine ⟨_, rfl, ?_⟩
  split
  · rename_i h
    dsimp only
    split
    · exact .write i k f h hg
    · exact .ignored i h hi
  · exact .fault i _

theorem registerOp_effect {i : Instr} {k : Kind} {f : Word → Word} {s : State}
    (hg : i.opcode.extractLsb' 4 4 = k.group) :
    ∃ t, registerOp k f s = .next t ∧ Effect s i t := by
  refine ⟨_, rfl, ?_⟩
  split
  · rename_i h; exact .write i k f h hg
  · exact .fault i _

/-- Say once what an operation can do: `exec` answers a next state with one of the effects. -/
theorem exec_effect (i : Instr) (s : State) : ∃ t, exec i s = .next t ∧ Effect s i t := by
  cases i
  case getChannelsOn | getChannelCount =>
    refine ⟨_, rfl, ?_⟩
    split
    · exact .answer _ _ ‹_› (by simp [Instr.opcode])
    · exact .fault _ _
  case setup n =>
    cases h : s.requester
    · exact ⟨_, execSetup_main n h, .setup n h⟩
    · exact ⟨_, by simp [exec, execSetup, onMainOnly, h], .fault _ .portNotPermitted⟩
  case reset =>
    cases h : s.requester
    · cases hi : s.initialized
      · exact ⟨_, by simp [exec, execReset, onMainOnly, whenInitialized, h, hi], .fault _ .notInitialized⟩
      · cases hr : s.params.hasRst
        · exact ⟨_, by simp [exec, execReset, onMainOnly, whenInitialized, h, hi, hr], .noLine hi h hr⟩
        · exact ⟨_, by simp [exec, execReset, onMainOnly, whenInitialized, h, hi, hr, ← pulseReset_eq], .pulse hi h hr⟩
    · exact ⟨_, by simp [exec, execReset, onMainOnly, h], .fault _ .portNotPermitted⟩
  all_goals first
    | exact registerOp_effect (by simp [Instr.opcode, Kind.group])
    | exact indexOp_effect rfl (by simp [Instr.opcode, Kind.group])

/-- The same, from the state after. -/
theorem effect_of_exec {i : Instr} {s t : State} (h : exec i s = .next t) : Effect s i t := by
  obtain ⟨u, hu, he⟩ := exec_effect i s
  rw [h] at hu
  cases hu
  exact he

/-- Running a command word: some operation's effect, or the ILLEGAL_OPCODE fault (R104, R221). -/
theorem runCommand_effect (w : Command) (s : State) :
    ∃ t, runCommand w s = .next t ∧ (t = raiseFault .illegalOpcode s ∨ ∃ i, decode w = .legal i ∧ Effect s i t) := by
  unfold runCommand
  cases h : decode w with
  | legal i =>
    obtain ⟨t, ht, he⟩ := exec_effect i s
    exact ⟨t, ht, .inr ⟨i, rfl, he⟩⟩
  | reserved op => exact ⟨_, rfl, .inl rfl⟩

/-- Everything the block can do in one action whose choice is given. -/
inductive Action (s : State) : State → Prop where
  | rested : s.owner = none → s.pendMain = none → s.pendIrq = none → Action s s
  | started (p : Port) (w : Command) (t : State) : s.owner = none → s.pending p = some w →
      runCommand w (grant p w s) = .next t → Action s t
  | preempted (w : Command) (t : State) : atPreemptionPoint s = true → s.pendIrq = some w →
      runCommand w (grant .irq w (suspendMain s)) = .next t → Action s t
  | advanced (p : Port) : s.owner = some p → Action s (advance s)

theorem start_action {p : Port} {s t : State} (ho : s.owner = none) (hn : s.pending p = none → s.pendMain = none ∧ s.pendIrq = none)
    (h : start p s = .next t) : Action s t := by
  unfold start at h
  split at h
  · rename_i w hw
    exact .started p w t ho hw h
  · cases h
    obtain ⟨hm, hq⟩ := hn ‹_›
    exact .rested ho hm hq

/-- Say once what an action can do. -/
theorem stepWith_action {b : Bool} {s t : State} (h : stepWith b s = .next t) : Action s t := by
  unfold stepWith at h
  split at h
  · rename_i ho
    split at h
    · rename_i hc
      refine start_action ho (fun hn => ?_) h
      simp_all [State.pending]
    · rename_i hc
      refine start_action ho (fun hn => ?_) h
      simp_all [State.pending]
  · rename_i p ho
    split at h
    · rename_i hc
      simp only [Bool.and_eq_true, Option.isSome_iff_exists] at hc
      obtain ⟨⟨hp, w, hw⟩, -⟩ := hc
      have hs : (suspendMain s).pending .irq = some w := hw
      simp only [start, hs] at h
      exact .preempted w t hp hw h
    · cases h
      exact .advanced p ho

/-- A step is one action after the callers presented what they may and the arbiter took its choice. -/
theorem step_stepWith (s : State) :
    step s = stepWith (choice (present s)) (chosen (present s)) ∧ contested (present s) = true ∨
      step s = stepWith false (present s) ∧ contested (present s) = false := by
  unfold step act
  cases h : contested (present s) <;> simp [h]

/-- What presenting and choosing leave alone. -/
theorem present_keeps (s : State) :
    present s = { s with pendMain := (present s).pendMain, pendIrq := (present s).pendIrq,
                         inMain := (present s).inMain, inIrq := (present s).inIrq } := by
  unfold present presentIrq presentMain
  repeat' (first | rfl | split)

theorem chosen_keeps (s : State) : chosen s = { s with sched := (chosen s).sched, drawn := (chosen s).drawn } := by
  unfold chosen
  split <;> rfl

/-- Say once what a step can do: from the state with what was presented and chosen, one action. -/
theorem step_action {s t : State} (h : step s = .next t) :
    ∃ u, u = { s with pendMain := u.pendMain, pendIrq := u.pendIrq, inMain := u.inMain, inIrq := u.inIrq,
                      sched := u.sched, drawn := u.drawn } ∧ Action u t := by
  have hp := present_keeps s
  rcases step_stepWith s with ⟨e, -⟩ | ⟨e, -⟩ <;> rw [e] at h
  · refine ⟨_, ?_, stepWith_action h⟩
    rw [chosen_keeps, hp]
  · refine ⟨_, ?_, stepWith_action h⟩
    rw [hp]

/-- The state in which an action runs a command for port p: granted at idle, or granted to IRQ with MAIN suspended. -/
def GrantedFrom (s : State) (p : Port) (w : Command) (u : State) : Prop :=
  (u = grant p w s ∧ s.owner = none) ∨ (p = .irq ∧ u = grant .irq w (suspendMain s) ∧ atPreemptionPoint s = true)

/-- A relation between the states before and after holds of every action when it holds of staying idle, of running a
command, and of advancing the operation in progress. -/
theorem Action.cases_on_effect {s t : State} (h : Action s t) (P : State → State → Prop) (hidle : P s s)
    (hcmd : ∀ p w u, GrantedFrom s p w u →
      P s (raiseFault .illegalOpcode u) ∧ ∀ i t, Effect u i t → P s t)
    (hadv : ∀ p, s.owner = some p → P s (advance s)) : P s t := by
  have run : ∀ p w u t, GrantedFrom s p w u → runCommand w u = .next t → P s t := by
    intro p w u t hu hr
    obtain ⟨t', ht', h⟩ := runCommand_effect w u
    rw [hr] at ht'
    cases ht'
    obtain ⟨h1, h2⟩ := hcmd p w u hu
    rcases h with rfl | ⟨i, -, hi⟩
    · exact h1
    · exact h2 i _ hi
  cases h with
  | rested => exact hidle
  | started p w t ho hp hr => exact run p w _ t (.inl ⟨rfl, ho⟩) hr
  | preempted w t ha hp hr => exact run .irq w _ t (.inr ⟨rfl, rfl, ha⟩) hr
  | advanced p ho => exact hadv p ho

/-- Advancing completes the operation at rest, and performs one frame event otherwise. -/
theorem advance_cases (s : State) :
    (advance s = complete s ∧ s.ser = .idle) ∨ (advance s = serStep s ∧ s.ser ≠ .idle) := by
  unfold advance
  split <;> simp [*]

/-- What performing one frame event leaves alone. -/
theorem serStep_keeps (s : State) :
    (∀ k, (serStep s).shadow k = s.shadow k) ∧ (serStep s).params = s.params ∧ (serStep s).cc = s.cc ∧
      (serStep s).initialized = s.initialized ∧ (serStep s).faults = s.faults ∧ (serStep s).answers = s.answers ∧
      (serStep s).owner = s.owner ∧ (serStep s).mainCtx = s.mainCtx ∧ (serStep s).rstN = s.rstN ∧
      (serStep s).serKind = s.serKind ∧ (serStep s).serVal = s.serVal ∧ s.trace <+: (serStep s).trace := by
  unfold serStep
  split <;> simp [State.shadow]

end Sys2Proof.Machine
end

