-- ==== Sys2Proof/Laws/Claims.lean ====
section
/-! SUPPORT. What the shared operations do, in the terms of Safety.lean: completion, faults, `Update`, and the two forms of a
register operation. The provers cite these instead of unfolding the operations. -/

namespace Sys2Proof.Machine

/-- `HandedBack` looks at the saved context and the command word of the state before only. -/
theorem handedBack_congr {p : Port} {pos : SerPos} {k : Kind} {v : Word} {s t u : State}
    (h : HandedBack p pos k v s u) (hm : t.mainCtx = s.mainCtx) (hc : t.cmd = s.cmd) : HandedBack p pos k v t u := by
  unfold HandedBack at *
  rw [hm, hc]
  exact h

/-- Completing an operation answers its port and does nothing else (R12). -/
theorem finish_onlyAnswered {p : Port} {s : State} (v : Option Word) (hp : s.requester = p) :
    OnlyAnswered p v s (finish v s) := by
  have h := finish_keeps v s
  refine ⟨⟨fun j => ?_, ?_⟩, ?_⟩
  · cases j <;> simp [State.shadow, h]
  · simp [h, SameSurroundings, finish_handsBack v hp]
  · simp [h, AnsweredTo, hp]

/-- Raising a fault (R220). -/
theorem raiseFault_faulted {p : Port} {s : State} (code : FaultCode) (hp : s.requester = p) :
    Faulted p code s (raiseFault code s) := by
  obtain ⟨fs, hr, -, hm, -⟩ := recordFault_spec ⟨code, s.requester, s.cmd⟩ s
  rw [raiseFault, complete, hr]
  obtain ⟨⟨h1, h2⟩, h3, h4⟩ := finish_onlyAnswered (s := { s with faults := fs }) none hp
  refine ⟨⟨fun j => ?_, ?_⟩, h4, fun r => ?_⟩
  · rw [h1 j]; cases j <;> rfl
  · obtain ⟨a, b, c, d, e, f, g⟩ := h2
    exact ⟨a, b, c, d, e, f, handedBack_congr g rfl rfl⟩
  · rw [h3, hm, hp]

/-- `Update(k, f)` (R13): the masked new value is written and its frame sent, or begun. -/
theorem update_wrote {p : Port} {s : State} (k : Kind) (f : Word → Word) (hp : s.requester = p) :
    Wrote p k (updated k f s) s (update k f s) := by
  cases hw : s.wholeFrame
  · have hc : ¬(s.params.atomicScope = .wholeOp ∨ p = .irq) := by simpa [State.wholeFrame, hp] using hw
    have hm : p = .main := by
      cases p
      · rfl
      · simp at hc
    rw [update_split k f hw, Wrote, if_neg hc]
    generalize updated k f s = v
    refine ⟨shadow_setShadow_same k v s, fun j hj => shadow_setShadow_other hj v s, ?_⟩
    have hr : (setShadow k v s).requester = .main := by rw [← hm, ← hp]; simp [State.requester]
    simp [SameSurroundings, frameStart, hr]
  · have hc : s.params.atomicScope = .wholeOp ∨ p = .irq := by simpa [State.wholeFrame, hp] using hw
    rw [update_whole k f hw, Wrote, if_pos hc, complete]
    generalize updated k f s = v
    have hp' : (writtenState k v s).requester = p := by rw [← hp]; simp [State.requester, writtenState]
    obtain ⟨⟨h1, h2, h3, h4, h5, h6, h7, h8⟩, h9, h10⟩ := finish_onlyAnswered none hp'
    have hk : ∀ j, (writtenState k v s).shadow j = (setShadow k v s).shadow j := fun j => by cases j <;> rfl
    refine ⟨by rw [h1, hk, shadow_setShadow_same], fun j hj => by rw [h1, hk, shadow_setShadow_other hj], ?_, ?_, ?_, ?_, ?_,
      ?_, h4, ?_, ?_⟩
    · rw [h2]; simp [writtenState]
    · rw [h3]; simp [writtenState]
    · rw [h5]; simp [writtenState]
    · rw [h9]; simp [writtenState]
    · simpa [SameSurroundings, writtenState] using h7
    · rw [h6]; simp [writtenState]
    · rw [AnsweredTo, h10]; simp [writtenState]
    · exact handedBack_congr h8 (by simp [writtenState]) (by simp [writtenState])

/-- An operation that needs `initialized`, before `setup` (R222). -/
theorem whenInitialized_before {p : Port} {s : State} {op : State → State} (hp : s.requester = p)
    (h : s.initialized = false) : Gives (whenInitialized op s) (Faulted p .notInitialized s) :=
  ⟨_, by rw [whenInitialized, h]; rfl, raiseFault_faulted _ hp⟩

/-- An operation that needs `initialized`, after `setup`. -/
theorem whenInitialized_after {s : State} {op : State → State} (h : s.initialized = true) :
    whenInitialized op s = .next (op s) := by
  rw [whenInitialized, h]; rfl

/-- A register operation of format I before `setup` (R222). -/
theorem indexOp_before {p : Port} {s : State} (k : Kind) (i : Word) (f : Word → Word) (hp : s.requester = p)
    (h : s.initialized = false) : Gives (indexOp k i f s) (Faulted p .notInitialized s) :=
  whenInitialized_before hp h

/-- A register operation of format I after `setup`, in range and out of range (R130, R225). -/
theorem indexOp_after {p : Port} {s : State} (k : Kind) (i : Word) (f : Word → Word) (hp : s.requester = p)
    (h : s.initialized = true) :
    (i.toNat < 8 * s.cc.toNat → Gives (indexOp k i f s) (Wrote p k (updated k f s) s)) ∧
      (8 * s.cc.toNat ≤ i.toNat → Gives (indexOp k i f s) (OnlyAnswered p none s)) := by
  constructor <;> intro hr <;> refine ⟨_, whenInitialized_after h, ?_⟩
  · have : inRange s.cc i = true := decide_eq_true hr
    simp only [this, if_true]
    exact update_wrote k f hp
  · have : inRange s.cc i = false := decide_eq_false (Nat.not_lt.mpr hr)
    simp only [this]
    exact finish_onlyAnswered none hp

/-- A register operation of format M or N after `setup` (R130). -/
theorem registerOp_after {p : Port} {s : State} (k : Kind) (f : Word → Word) (hp : s.requester = p)
    (h : s.initialized = true) : Gives (registerOp k f s) (Wrote p k (updated k f s) s) :=
  ⟨_, whenInitialized_after h, update_wrote k f hp⟩

end Sys2Proof.Machine
end

