-- ==== Sys2Proof/Laws/PerInstr.lean ====
section
/-! SUPPORT. The per-instruction family `EncodingForm`: every operation is encoded as `{op, opd}` with a legal opcode, an
operand field holding its operand, and 0 there for format N (spec/30_encoding.md R100, R102, R106). -/

namespace Sys2Proof.Laws.EncodingForm

/-- The encoded word of `i` has its opcode and operand in the fields of R100, the opcode is not reserved, and format N
encodes operand 0. -/
def Statement (i : Instr) : Prop :=
  opcodeField (encode i) = i.opcode ∧ operandField (encode i) = i.operand ∧ WellFormed.command (encode i) = true ∧
    (i.format = .none → i.operand = 0)

/-- Concatenation puts the opcode in `cmd[39:32]`. -/
theorem opcodeField_append (op : Opcode) (opd : Word) : opcodeField (op ++ opd) = op := by
  apply BitVec.eq_of_getLsbD_eq
  intro j hj
  rw [opcodeField, BitVec.getLsbD_extractLsb', show (op ++ opd).getLsbD (32 + j) = _ from BitVec.getLsbD_append]
  simp [hj]

/-- Concatenation puts the operand in `cmd[31:0]`. -/
theorem operandField_append (op : Opcode) (opd : Word) : operandField (op ++ opd) = opd := by
  apply BitVec.eq_of_getLsbD_eq
  intro j hj
  rw [operandField, BitVec.getLsbD_extractLsb', show (op ++ opd).getLsbD (0 + j) = _ from BitVec.getLsbD_append]
  simp [hj]

/-- What is left to show for one operation: its opcode is legal and its format's operand rule. -/
theorem of_legal {i : Instr} (op : Opcode) (ho : i.opcode = op) (h : WellFormed.opcode op = true)
    (hn : i.format = .none → i.operand = 0) : Statement i := by
  refine ⟨opcodeField_append _ _, operandField_append _ _, ?_, hn⟩
  have e : WellFormed.command (encode i) = WellFormed.opcode (opcodeField (encode i)) := rfl
  rw [e, show opcodeField (encode i) = i.opcode from opcodeField_append _ _, ho]
  exact h

theorem setChannel (opd : Word) : Statement (.setChannel opd) := of_legal 0x10 rfl (by decide) (fun h => nomatch h)
theorem clearChannel (opd : Word) : Statement (.clearChannel opd) := of_legal 0x11 rfl (by decide) (fun h => nomatch h)
theorem toggleChannel (opd : Word) : Statement (.toggleChannel opd) := of_legal 0x12 rfl (by decide) (fun h => nomatch h)
theorem setChannels (opd : Word) : Statement (.setChannels opd) := of_legal 0x13 rfl (by decide) (fun h => nomatch h)
theorem clearChannels (opd : Word) : Statement (.clearChannels opd) := of_legal 0x14 rfl (by decide) (fun h => nomatch h)
theorem toggleChannels (opd : Word) : Statement (.toggleChannels opd) := of_legal 0x15 rfl (by decide) (fun h => nomatch h)
theorem setAllOn : Statement .setAllOn := of_legal 0x16 rfl (by decide) (fun _ => rfl)
theorem setAllOff : Statement .setAllOff := of_legal 0x17 rfl (by decide) (fun _ => rfl)
theorem toggleAll : Statement .toggleAll := of_legal 0x18 rfl (by decide) (fun _ => rfl)
theorem setExclusiveOn (opd : Word) : Statement (.setExclusiveOn opd) := of_legal 0x19 rfl (by decide) (fun h => nomatch h)
theorem setExclusiveOff (opd : Word) : Statement (.setExclusiveOff opd) := of_legal 0x1A rfl (by decide) (fun h => nomatch h)
theorem setMaskExact (opd : Word) : Statement (.setMaskExact opd) := of_legal 0x1B rfl (by decide) (fun h => nomatch h)
theorem setMaskComplement (opd : Word) : Statement (.setMaskComplement opd) := of_legal 0x1C rfl (by decide) (fun h => nomatch h)
theorem setChannelMapTrue (opd : Word) : Statement (.setChannelMapTrue opd) := of_legal 0x20 rfl (by decide) (fun h => nomatch h)
theorem setChannelMapFalse (opd : Word) : Statement (.setChannelMapFalse opd) := of_legal 0x21 rfl (by decide) (fun h => nomatch h)
theorem setAllChannelsMapTrue : Statement .setAllChannelsMapTrue := of_legal 0x26 rfl (by decide) (fun _ => rfl)
theorem setAllChannelsMapFalse : Statement .setAllChannelsMapFalse := of_legal 0x27 rfl (by decide) (fun _ => rfl)
theorem setChannelBooleanAnd (opd : Word) : Statement (.setChannelBooleanAnd opd) := of_legal 0x30 rfl (by decide) (fun h => nomatch h)
theorem setChannelBooleanOr (opd : Word) : Statement (.setChannelBooleanOr opd) := of_legal 0x31 rfl (by decide) (fun h => nomatch h)
theorem setAllChannelsBooleanAnd : Statement .setAllChannelsBooleanAnd := of_legal 0x36 rfl (by decide) (fun _ => rfl)
theorem setAllChannelsBooleanOr : Statement .setAllChannelsBooleanOr := of_legal 0x37 rfl (by decide) (fun _ => rfl)
theorem getChannelsOn : Statement .getChannelsOn := of_legal 0x40 rfl (by decide) (fun _ => rfl)
theorem getChannelCount : Statement .getChannelCount := of_legal 0x41 rfl (by decide) (fun _ => rfl)
theorem setup (opd : Word) : Statement (.setup opd) := of_legal 0x50 rfl (by decide) (fun h => nomatch h)
theorem reset : Statement .reset := of_legal 0x51 rfl (by decide) (fun _ => rfl)

end Sys2Proof.Laws.EncodingForm
end

