-- ==== Sys2Proof/Machine/Assembler.lean ====
section
/-! DEFINITION. The assembler syntax of spec/30_encoding.md R106 and the pseudo-instruction of R107: one line of text to the
port it is meant for and its 40-bit command word. It is no part of the block; the programs of spec/95_test_vectors.md
are written in it. -/

namespace Sys2Proof.Machine

/-- A line of source: nothing on it, a command for a port, or not of the form R106 gives. -/
inductive AsmLine where
  | empty
  | command (port : Port) (word : Command)
  | bad
  deriving DecidableEq, Repr

/-- The mnemonics of R103 and R107, with the operation each makes of its operand (format N ignores it). -/
def mnemonics : List (String × (Word → Instr)) :=
  [("set_channel", .setChannel),
   ("clear_channel", .clearChannel),
   ("toggle_channel", .toggleChannel),
   ("set_channels", .setChannels),
   ("clear_channels", .clearChannels),
   ("toggle_channels", .toggleChannels),
   ("set_all_on", fun _ => .setAllOn),
   ("set_all_off", fun _ => .setAllOff),
   ("toggle_all", fun _ => .toggleAll),
   ("set_exclusive_on", .setExclusiveOn),
   ("set_exclusive_off", .setExclusiveOff),
   ("set_mask_exact", .setMaskExact),
   ("set_mask_complement", .setMaskComplement)] ++
  [("set_channel_map_true", .setChannelMapTrue),
   ("set_channel_map_false", .setChannelMapFalse),
   ("set_all_channels_map_true", fun _ => .setAllChannelsMapTrue),
   ("set_all_channels_map_false", fun _ => .setAllChannelsMapFalse),
   ("set_channel_boolean_and", .setChannelBooleanAnd),
   ("set_channel_boolean_or", .setChannelBooleanOr),
   ("set_all_channels_boolean_and", fun _ => .setAllChannelsBooleanAnd),
   ("set_all_channels_boolean_or", fun _ => .setAllChannelsBooleanOr)] ++
  [("get_channels_on", fun _ => .getChannelsOn),
   ("get_channel_count", fun _ => .getChannelCount),
   ("setup", .setup),
   ("reset", fun _ => .reset),
   ("set_channel_on", .setChannelOn)]

/-- The text before a comment, which starts with `;`. -/
def uncomment (cs : List Char) : List Char := cs.takeWhile (· ≠ ';')

/-- The words of a text, in order: its longest runs without a blank. `word` is the run read so far, reversed. -/
def wordsFrom (word : List Char) : List Char → List (List Char)
  | [] => if word.isEmpty then [] else [word.reverse]
  | c :: rest =>
    if c = ' ' ∨ c = '\t' then
      if word.isEmpty then wordsFrom [] rest else word.reverse :: wordsFrom [] rest
    else wordsFrom (c :: word) rest

/-- The value of a digit in a base of at most 16. -/
def digitValue (base : Nat) (c : Char) : Option Nat :=
  let v :=
    if '0' ≤ c ∧ c ≤ '9' then c.toNat - '0'.toNat
    else if 'a' ≤ c ∧ c ≤ 'f' then c.toNat - 'a'.toNat + 10
    else if 'A' ≤ c ∧ c ≤ 'F' then c.toNat - 'A'.toNat + 10
    else base
  if v < base then some v else none

/-- The value of a run of digits after those already read. -/
def digitsValue (base : Nat) (acc : Nat) : List Char → Option Nat
  | [] => some acc
  | c :: rest => (digitValue base c).bind fun d => digitsValue base (acc * base + d) rest

/-- An operand: decimal, or hexadecimal after `0x`, below 2^32 (R106). -/
def operandValue (cs : List Char) : Option Word :=
  let n :=
    match cs with
    | '0' :: 'x' :: d :: ds => digitsValue 16 0 (d :: ds)
    | d :: ds => digitsValue 10 0 (d :: ds)
    | [] => none
  n.bind fun n => if WellFormed.operand n then some (BitVec.ofNat 32 n) else none

/-- `<mnemonic>` for format N, `<mnemonic> <operand>` for formats I, M and C (R106). -/
def assembleWords : List (List Char) → Option Command
  | m :: operands =>
    (mnemonics.find? fun row => row.1.toList == m).bind fun row =>
      match (row.2 0).format, operands with
      | .none, [] => some (encode (row.2 0))
      | .none, _ => none
      | _, [opd] => (operandValue opd).map fun v => encode (row.2 v)
      | _, _ => none
  | [] => none

/-- One line, for the MAIN port or, after the word `irq:`, for the IRQ port (R106). -/
def assembleLine (line : String) : AsmLine :=
  match wordsFrom [] (uncomment line.toList) with
  | [] => .empty
  | w :: rest =>
    let (port, words) := if w = "irq:".toList then (Port.irq, rest) else (Port.main, w :: rest)
    match assembleWords words with
    | some c => .command port c
    | none => .bad

end Sys2Proof.Machine
end

