-- ==== Sys2Proof/Tests/Slice0.lean ====
section
/-! SUPPORT. The model's own tests. Expected values come from spec/95_test_vectors.md (the vector's number is named), or
are worked out by hand from the rule named; each runs one operation or one step on a small state. -/

namespace Sys2Proof.Machine.Tests

/-! Helpers. -/

/-- The state after `setup n` (R202) with MAIN the owner and an empty trace, so that a test sees its own events only. -/
def ready (n : BitVec 3) : State :=
  { State.powerOn .conventional with
    cc := n, initialized := true, csN := .drive true, inputMap := allMask n, boolOp := allMask n, owner := some .main }

/-- Power-on with MAIN the owner. -/
def fresh : State := { State.powerOn .conventional with owner := some .main }

/-- The same block with the given parameters. -/
def under (p : Params) (s : State) : State := { s with params := p }

/-- The parameters with AND_BIT 0. -/
def and0 : Params := { Params.conventional with andBit := false }

/-- The parameters with a reset line. -/
def line : Params := { Params.conventional with hasRst := true }

/-- The parameters under SHADOW_ONLY. -/
def shadowOnly : Params := { Params.conventional with atomicScope := .shadowOnly }

/-- The answer is a next state that passes the check. -/
def gives (o : Answered) (check : State → Bool) : Bool :=
  match o with
  | .next t => check t
  | .fault _ | .refused _ => false

/-- "Bytes" of a vector: the frame's transfers between its chip-select events; none for "-". -/
def events (bytes : List Byte) : List Event :=
  if bytes.isEmpty then [] else .pin .cs false :: bytes.map .xfer ++ [.pin .cs true]

/-- The end value of a shadow, and the bytes. -/
def ends (o : Answered) (k : Kind) (v : Word) (bytes : List Byte) : Bool :=
  gives o fun t => t.shadow k == v && t.trace == events bytes && t.faults.isEmpty

/-! Well-formedness: an ill-formed term for each check. -/

theorem test_wf_reserved_opcode_refused : WellFormed.opcode 0x1D = false ∧ WellFormed.opcode 0x1C = true := by decide

theorem test_wf_reserved_command_refused :
    WellFormed.command 0xFF00000000 = false ∧ WellFormed.command 0x5100000000 = true := by decide

theorem test_wf_operand_of_33_bits_refused :
    WellFormed.operand 0x100000000 = false ∧ WellFormed.operand 0xFFFFFFFF = true := by decide

/-! Decoding: every constructor, from its word written out from R100 and the opcode column of R103. The words of R108 and
of the programs P1 to P5 are among them. -/

theorem test_decode_control_index :
    decode 0x1000000005 = .legal (.setChannel 5) ∧ decode 0x1100000017 = .legal (.clearChannel 23) ∧
      decode 0x1200000003 = .legal (.toggleChannel 3) ∧ decode 0x190000001F = .legal (.setExclusiveOn 31) ∧
      decode 0x1A00000000 = .legal (.setExclusiveOff 0) := by decide

theorem test_decode_control_mask :
    decode 0x1300AABBCC = .legal (.setChannels 0xAABBCC) ∧ decode 0x14F0F0F0F0 = .legal (.clearChannels 0xF0F0F0F0) ∧
      decode 0x15000000FF = .legal (.toggleChannels 0xFF) ∧ decode 0x1B00AABBCC = .legal (.setMaskExact 0xAABBCC) ∧
      decode 0x1C0000FFFF = .legal (.setMaskComplement 0xFFFF) := by decide

theorem test_decode_control_all :
    decode 0x1600000000 = .legal .setAllOn ∧ decode 0x17FFFFFFFF = .legal .setAllOff ∧
      decode 0x1800000000 = .legal .toggleAll := by decide

theorem test_decode_map :
    decode 0x2000000008 = .legal (.setChannelMapTrue 8) ∧ decode 0x2100000009 = .legal (.setChannelMapFalse 9) ∧
      decode 0x2600000000 = .legal .setAllChannelsMapTrue ∧ decode 0x2700000000 = .legal .setAllChannelsMapFalse := by decide

theorem test_decode_bool :
    decode 0x3000000009 = .legal (.setChannelBooleanAnd 9) ∧ decode 0x3100000007 = .legal (.setChannelBooleanOr 7) ∧
      decode 0x3600000000 = .legal .setAllChannelsBooleanAnd ∧
      decode 0x3700000000 = .legal .setAllChannelsBooleanOr := by decide

theorem test_decode_query_and_lifecycle :
    decode 0x4000000000 = .legal .getChannelsOn ∧ decode 0x4100000001 = .legal .getChannelCount ∧
      decode 0x5000000003 = .legal (.setup 3) ∧ decode 0x5100000000 = .legal .reset := by decide

/-- R105: the reserved neighbours of the legal opcodes. -/
theorem test_decode_reserved :
    [0x0F, 0x1D, 0x22, 0x25, 0x28, 0x2F, 0x32, 0x35, 0x38, 0x3F, 0x42, 0x4F, 0x52, 0xFF].all
      (fun op => decode (BitVec.ofNat 8 op ++ 7#32) == .reserved (BitVec.ofNat 8 op)) = true := by decide

/-- The table's own numbering. -/
theorem test_decode_table_word :
    decodeTableWord 40 0x1000000005 = some (.setChannel 5) ∧ decodeTableWord 40 0xFF00000000 = none := by decide

/-! The assembler (R106, R107). -/

theorem test_assemble_programs :
    assembleLine "irq: toggle_channel 3" = .command .irq 0x1200000003 ∧
      assembleLine "set_mask_exact 0xAABBCC ; P1 step 2" = .command .main 0x1B00AABBCC ∧
      assembleLine "set_channel_on 5" = .command .main 0x1000000005 := by decide

theorem test_assemble_refuses :
    assembleLine "set_channel 4294967296" = .bad ∧ assembleLine "set_all_on 1" = .bad ∧
      assembleLine "; only a comment" = .empty := by decide

/-! Control register. -/

theorem test_CT3_set_channel : ends (exec (.setChannel 7) (ready 1)) .ctrl 0x80 [0xC7, 0x80] = true := by decide

theorem test_CT5_set_channel_out_of_range : ends (exec (.setChannel 0xFFFFFFFF) (ready 2)) .ctrl 0 [] = true := by decide

theorem test_CT7_clear_channel :
    ends (exec (.clearChannel 3) { ready 2 with ctrl := 8 }) .ctrl 0 [0xC7, 0, 0xC7, 0] = true := by decide

/-- R132, R225: index 16 of 16 channels. -/
theorem test_clear_channel_out_of_range :
    ends (exec (.clearChannel 16) { ready 2 with ctrl := 8 }) .ctrl 8 [] = true := by decide

theorem test_CT9_toggle_channel : ends (exec (.toggleChannel 15) (ready 2)) .ctrl 0x8000 [0xC7, 0x80, 0xC7, 0] = true := by
  decide

/-- R133, R225: index 32 of 32 channels. -/
theorem test_toggle_channel_out_of_range : ends (exec (.toggleChannel 32) (ready 4)) .ctrl 0 [] = true := by decide

theorem test_CT15_set_channels :
    ends (exec (.setChannels 0x12340F00) { ready 2 with ctrl := 1 }) .ctrl 0xF01 [0xC7, 0x0F, 0xC7, 1] = true := by decide

theorem test_CT13_clear_channels :
    ends (exec (.clearChannels 0xFFFF0000) { ready 2 with ctrl := 0xFFFF }) .ctrl 0xFFFF [0xC7, 0xFF, 0xC7, 0xFF] = true := by
  decide

theorem test_CT14_toggle_channels :
    ends (exec (.toggleChannels 0x01000001) (ready 3)) .ctrl 1 [0xC7, 0, 0xC7, 0, 0xC7, 1] = true := by decide

theorem test_CT18_set_all_on :
    ends (exec .setAllOn (ready 4)) .ctrl 0xFFFFFFFF [0xC7, 0xFF, 0xC7, 0xFF, 0xC7, 0xFF, 0xC7, 0xFF] = true := by decide

theorem test_CT32_set_all_off :
    ends (exec .setAllOff { ready 2 with ctrl := 0x3F0 }) .ctrl 0 [0xC7, 0, 0xC7, 0] = true := by decide

theorem test_CT19_toggle_all :
    ends (exec .toggleAll { ready 4 with ctrl := 0x20 }) .ctrl 0xFFFFFFDF
      [0xC7, 0xFF, 0xC7, 0xFF, 0xC7, 0xFF, 0xC7, 0xDF] = true := by decide

theorem test_CT20_toggle_all : ends (exec .toggleAll (ready 1)) .ctrl 0xFF [0xC7, 0xFF] = true := by decide

theorem test_CT21_set_exclusive_on :
    ends (exec (.setExclusiveOn 0) { ready 2 with ctrl := 0xFFFF }) .ctrl 1 [0xC7, 0, 0xC7, 1] = true := by decide

theorem test_CT22_set_exclusive_on_out_of_range :
    ends (exec (.setExclusiveOn 16) { ready 2 with ctrl := 2 }) .ctrl 2 [] = true := by decide

theorem test_CT23_set_exclusive_off :
    ends (exec (.setExclusiveOff 23) (ready 3)) .ctrl 0x7FFFFF [0xC7, 0x7F, 0xC7, 0xFF, 0xC7, 0xFF] = true := by decide

theorem test_CT24_set_exclusive_off_out_of_range : ends (exec (.setExclusiveOff 24) (ready 3)) .ctrl 0 [] = true := by decide

theorem test_CT27_set_mask_exact :
    ends (exec (.setMaskExact 0x12345678) (ready 3)) .ctrl 0x345678 [0xC7, 0x34, 0xC7, 0x56, 0xC7, 0x78] = true := by decide

theorem test_CT30_set_mask_complement :
    ends (exec (.setMaskComplement 0x0F0F0F0F) (ready 4)) .ctrl 0xF0F0F0F0
      [0xC7, 0xF0, 0xC7, 0xF0, 0xC7, 0xF0, 0xC7, 0xF0] = true := by decide

theorem test_CT31_set_mask_complement :
    ends (exec (.setMaskComplement 0xFFFFFF00) (ready 1)) .ctrl 0xFF [0xC7, 0xFF] = true := by decide

/-! InputMap and BooleanOp. -/

theorem test_MP3_set_channel_map_true :
    ends (exec (.setChannelMapTrue 0) { ready 2 with inputMap := 0 }) .map 1 [0xC1, 0, 0xC1, 1] = true := by decide

/-- P3 step 7: index 8 of 8 channels. -/
theorem test_P3_set_channel_map_true_out_of_range :
    ends (exec (.setChannelMapTrue 8) { ready 1 with inputMap := 0x7F }) .map 0x7F [] = true := by decide

theorem test_MP1_set_channel_map_false :
    ends (exec (.setChannelMapFalse 15) (ready 2)) .map 0x7FFF [0xC1, 0x7F, 0xC1, 0xFF] = true := by decide

theorem test_MP2_set_channel_map_false_out_of_range :
    ends (exec (.setChannelMapFalse 16) (ready 2)) .map 0xFFFF [] = true := by decide

theorem test_MP5_set_all_channels_map_true :
    ends (exec .setAllChannelsMapTrue { ready 3 with inputMap := 0 }) .map 0xFFFFFF
      [0xC1, 0xFF, 0xC1, 0xFF, 0xC1, 0xFF] = true := by decide

theorem test_MP4_set_all_channels_map_false :
    ends (exec .setAllChannelsMapFalse (ready 3)) .map 0 [0xC1, 0, 0xC1, 0, 0xC1, 0] = true := by decide

theorem test_BO2_set_channel_boolean_and :
    ends (exec (.setChannelBooleanAnd 9) { ready 2 with boolOp := 0xFDFF }) .bool 0xFFFF [0xC2, 0xFF, 0xC2, 0xFF] = true := by
  decide

theorem test_BO7_set_channel_boolean_and :
    ends (exec (.setChannelBooleanAnd 9) { under and0 (ready 2) with boolOp := 0x200 }) .bool 0
      [0xC2, 0, 0xC2, 0] = true := by decide

theorem test_BO1_set_channel_boolean_or :
    ends (exec (.setChannelBooleanOr 9) (ready 2)) .bool 0xFDFF [0xC2, 0xFD, 0xC2, 0xFF] = true := by decide

theorem test_BO6_set_channel_boolean_or :
    ends (exec (.setChannelBooleanOr 9) { under and0 (ready 2) with boolOp := 0 }) .bool 0x200
      [0xC2, 2, 0xC2, 0] = true := by decide

theorem test_BO5_set_all_channels_boolean_and :
    ends (exec .setAllChannelsBooleanAnd { ready 2 with boolOp := 0 }) .bool 0xFFFF [0xC2, 0xFF, 0xC2, 0xFF] = true := by
  decide

theorem test_BO9_set_all_channels_boolean_and :
    ends (exec .setAllChannelsBooleanAnd (under and0 (ready 2))) .bool 0 [0xC2, 0, 0xC2, 0] = true := by decide

theorem test_BO4_set_all_channels_boolean_or :
    ends (exec .setAllChannelsBooleanOr (ready 2)) .bool 0 [0xC2, 0, 0xC2, 0] = true := by decide

theorem test_BO8_set_all_channels_boolean_or :
    ends (exec .setAllChannelsBooleanOr { under and0 (ready 2) with boolOp := 0 }) .bool 0xFFFF
      [0xC2, 0xFF, 0xC2, 0xFF] = true := by decide

/-! Queries and lifecycle. -/

theorem test_QU5_get_channels_on :
    gives (exec .getChannelsOn { ready 2 with ctrl := 0x8001 })
      (fun t => t.answers == [⟨.main, some 0x8001⟩] && t.trace.isEmpty) = true := by decide

theorem test_QU6_get_channels_on_at_power_on :
    gives (exec .getChannelsOn fresh) (fun t => t.answers == [⟨.main, none⟩] && t.faults.map (·.code) == [.notInitialized]) =
      true := by decide

theorem test_QU3_get_channel_count :
    gives (exec .getChannelCount (ready 3)) (fun t => t.answers == [⟨.main, some 24⟩] && t.trace.isEmpty) = true := by decide

theorem test_QU4_get_channel_count :
    gives (exec .getChannelCount (ready 4)) (fun t => t.answers == [⟨.main, some 32⟩]) = true := by decide

theorem test_LC6_setup :
    gives (exec (.setup 1) (under line fresh)) (fun t =>
      t.rstN == .drive true && t.trace ==
        [.pinOut .cs, .pin .cs true, .pinOut .rst, .pin .rst true, .busBegin] ++ events [0xC1, 0xFF] ++
          events [0xC2, 0xFF] ++ events [0xC7, 0]) = true := by decide

theorem test_LC1_LC3_setup :
    [0x0, 0x5, 0xFFFFFFFF].all (fun n => gives (exec (.setup n) fresh) fun t => t.cc == 1) = true ∧
      gives (exec (.setup 4) { ready 2 with ctrl := 8 }) (fun t =>
        t.cc == 4 && t.ctrl == 0 && t.inputMap == 0xFFFFFFFF && t.boolOp == 0xFFFFFFFF) = true := by decide

theorem test_LC4_reset :
    gives (exec .reset { under line (ready 1) with ctrl := 0xFF, inputMap := 0x7F }) (fun t =>
      t.ctrl == 0 && t.inputMap == 0x7F && t.trace == [.pin .rst false, .delay 200, .pin .rst true]) = true := by decide

theorem test_LC5_reset_without_line : ends (exec .reset { ready 1 with ctrl := 8 }) .ctrl 8 [] = true := by decide

/-! Framing. -/

/-- SE2, for an operation with RECONFIG_EACH_TXN. -/
theorem test_SE2_reconfigured_frame :
    gives (exec (.setChannelMapFalse 7) (under { Params.conventional with reconfigEachTxn := true } (ready 1)))
      (fun t => t.trace == [.txnBegin 4000000 .msbFirst .mode1, .pin .cs false, .xfer 0xC1, .xfer 0x7F, .pin .cs true,
        .txnEnd]) = true := by decide

/-! Faults, as steps: the command is presented, and the fault records are read. -/

/-- The fault codes after one step with the word on the IRQ port. -/
def irqFaults (s : State) (w : Command) : List FaultCode :=
  match step { s with owner := none, pendIrq := some w } with
  | .next t => t.faults.map (·.code)
  | .fault _ | .refused _ => []

/-- FA1, and the record itself (P5 step 1). -/
theorem test_FA1_not_initialized :
    gives (step (State.reset.withFetchWord 40 0x1000000000)) (fun t =>
      t.faults == [⟨.notInitialized, .main, 0x1000000000⟩] && t.trace.isEmpty) = true := by decide

theorem test_FA2_illegal_opcode :
    gives (step ((ready 2).withFetchWord 40 0)) (fun t => t.faults == [⟨.illegalOpcode, .main, 0⟩] && t.owner == none) =
      true := by decide

/-- FA3 (in both states), FA4, FA5. -/
theorem test_FA3_FA4_FA5_irq_port :
    irqFaults fresh 0x5000000002 = [.portNotPermitted] ∧ irqFaults (ready 2) 0x5000000002 = [.portNotPermitted] ∧
      irqFaults fresh 0xFF00000000 = [.illegalOpcode] ∧ irqFaults fresh 0x5100000000 = [.portNotPermitted] := by decide

/-- R32: `faults` is a set, so a fault raised twice leaves one record. -/
theorem test_fault_twice_is_one_record :
    gives (exec .setAllOn { fresh with cmd := 0x1600000000, faults := [⟨.notInitialized, .main, 0x1600000000⟩] })
      (fun t => t.faults.length == 1 && t.answers.length == 1) = true := by decide

/-! The arbiter. -/

/-- MAIN's `set_channel 0` at p2 of AR2 and AR3, with an IRQ command pending and chosen. -/
def atP2 (w : Command) : State :=
  { under shadowOnly (ready 2) with
    ctrl := 1, csN := .drive false, ser := .data 1, serKind := .ctrl, serVal := 1, cmd := 0x1000000000
    pendIrq := some w, sched := [true], trace := [.pin .cs false, .xfer 0xC7] }

/-- AR3: the IRQ frame comes inside MAIN's, and MAIN stands where it was. -/
theorem test_AR3_irq_at_p2 :
    gives (step (atP2 0x2100000009)) (fun t =>
      t.ctrl == 1 && t.inputMap == 0xFDFF && t.owner == some .main && t.ser == .data 1 && t.serVal == 1 &&
        t.trace == [.pin .cs false, .xfer 0xC7] ++ events [0xC1, 0xFD, 0xC1, 0xFF]) = true := by decide

/-- AR2: the IRQ operation builds on MAIN's update, and MAIN still sends its captured value. -/
theorem test_AR2_irq_at_p2 :
    gives (step (atP2 0x1000000009)) (fun t =>
      t.ctrl == 0x201 && t.serVal == 1 && t.trace == [.pin .cs false, .xfer 0xC7] ++ events [0xC7, 2, 0xC7, 1]) = true := by
  decide

/-- AR1: under WHOLE_OP the schedule decides at idle only; here IRQ goes first (R81). -/
theorem test_AR1_irq_first :
    gives (step { ready 2 with owner := none, pendMain := some 0x1000000000, pendIrq := some 0x2100000009, sched := [true] })
      (fun t => t.ctrl == 0 && t.inputMap == 0xFDFF && t.pendMain == some 0x1000000000 && t.owner == none) = true := by decide

/-- MAIN's operation under SHADOW_ONLY stands at p0 after its first step (R84). -/
theorem test_shadow_only_starts_at_p0 :
    gives (step ((under shadowOnly (ready 2)).withFetchWord 40 0x1000000000)) (fun t =>
      t.ctrl == 1 && t.owner == some .main && t.ser == .cslo && t.trace.isEmpty && t.answers.isEmpty) = true := by decide

/-! The observer. -/

/-- A chain of two ICs after `setup 2`. -/
def chain : Chain :=
  let chip : Chip := ⟨0, [0, 0xFF, 0xFF, 0, 0, 0, 0, 0]⟩
  ⟨.drive true, [chip, chip]⟩

/-- The Control and InputMap registers of chips 1 and 0 after a trace. -/
def devices (t : List Event) : List Byte :=
  let c := observeAll (fun _ _ => 0) chain t
  [c.device 1 7, c.device 0 7, c.device 1 1, c.device 0 1]

/-- The trace of AR3, from its row, leaves Control 0x0000 and InputMap 0xFDFF. -/
theorem test_AR3_devices :
    devices ([.pin .cs false, .xfer 0xC7, .pin .cs false, .xfer 0xC1, .xfer 0xFD, .xfer 0xC1, .xfer 0xFF, .pin .cs true,
      .xfer 0, .xfer 0xC7, .xfer 1, .pin .cs true]) = [0, 0, 0xFD, 0xFF] := by decide

/-- The trace of AR2 leaves Control 0x0201. -/
theorem test_AR2_devices :
    devices ([.pin .cs false, .xfer 0xC7, .pin .cs false, .xfer 0xC7, .xfer 2, .xfer 0xC7, .xfer 1, .pin .cs true,
      .xfer 0, .xfer 0xC7, .xfer 1, .pin .cs true]) = [2, 1, 0xFF, 0xFF] := by decide

/-! Witnesses: for each statement with hypotheses, states and operands that meet them. -/

/-- SafeStateAtPowerOn has none. EveryStepKeepsSafeState: its premises hold together, and the step is not the idle one. -/
theorem test_witness_EveryStepKeepsSafeState :
    Inv (State.reset.withFetchWord 40 0x5000000002) ∧
      ∃ t, step (State.reset.withFetchWord 40 0x5000000002) = .next t ∧ t.initialized = true := by
  refine ⟨⟨by decide, fun k => ?_, by decide, by decide, by decide, by decide, trivial⟩, _, rfl, by decide⟩
  unfold Masked
  cases k <;> decide

/-- WireAgreesAtPowerOn and EveryStepKeepsWireAgreement: power-on agrees, and the step is `setup 2`. -/
theorem test_witness_EveryStepKeepsWireAgreement :
    WireAgrees (State.reset.withFetchWord 40 0x5000000002) ∧ Params.conventional.atomicScope = .wholeOp ∧
      gives (step (State.reset.withFetchWord 40 0x5000000002)) (fun t =>
        (readWire t.trace).map == some [0xC1, 0xFF, 0xC1, 0xFF] && (readWire t.trace).ctrl == some [0xC7, 0, 0xC7, 0]) =
        true := by
  exact ⟨⟨by decide, by decide, by decide, by decide, by decide⟩, by decide, by decide⟩

/-- EveryStepKeepsPinsAtTraceLevels, with a step that moves a line. -/
theorem test_witness_EveryStepKeepsPinsAtTraceLevels :
    PinsFollowTrace (State.reset.withFetchWord 40 0x5000000001) ∧
      ∃ t, step (State.reset.withFetchWord 40 0x5000000001) = .next t ∧ t.csN = .drive true :=
  ⟨⟨by decide, by decide⟩, _, rfl, by decide⟩

/-- EncodeOfDecodeIsTheWord: a word of each kind, format N with an operand that is dropped. -/
theorem test_witness_EncodeOfDecodeIsTheWord :
    decode 0x16000000AA = .legal .setAllOn ∧ encode .setAllOn = 0x1600000000 ∧
      decode 0x13000000AA = .legal (.setChannels 0xAA) ∧ encode (.setChannels 0xAA) = 0x13000000AA := by decide

/-- DecodingIsTotalAndFollowsTheOpcode: the opcodes on both sides of a reserved range. -/
theorem test_witness_DecodingIsTotalAndFollowsTheOpcode :
    WellFormed.opcode 0x51 = true ∧ WellFormed.opcode 0x52 = false ∧ WellFormed.opcode 0x0F = false ∧
      WellFormed.opcode 0x10 = true := by decide

/-- An idle block with one command on the MAIN port. -/
def mainOnly (w : Command) : State := { ready 2 with owner := none, pendMain := some w }

/-- An idle block with one command on the IRQ port. -/
def irqOnly (w : Command) : State := { ready 2 with owner := none, pendIrq := some w }

/-- StepRunsTheDecodedInstruction and ReservedOpcodeRaisesIllegalOpcode, on both ports. -/
theorem test_witness_OnlyPending :
    OnlyPending .main 0x1000000005 (mainOnly 0x1000000005) ∧ OnlyPending .irq 0x1000000005 (irqOnly 0x1000000005) ∧
      OnlyPending .main 0 (mainOnly 0) ∧ OnlyPending .irq 0 (irqOnly 0) ∧ WellFormed.command 0 = false ∧
      decode 0x1000000005 = .legal (.setChannel 5) := by
  simp [OnlyPending, State.pending, mainOnly, irqOnly, ready, State.powerOn]
  decide

/-- EitherPendingPortMayStartFirst: both ports pending, with either schedule and with none. -/
def bothPending (sched : List Bool) : State :=
  { ready 2 with owner := none, pendMain := some 0x1000000000, pendIrq := some 0x2100000009, sched := sched }

theorem test_witness_EitherPendingPortMayStartFirst :
    [[], [true], [false, true]].all (fun l =>
      (bothPending l).owner == none && (bothPending l).pendMain.isSome && (bothPending l).pendIrq.isSome) = true := by decide

/-- WholeOpStepCompletesOneOperation: with a command waiting, and with none. -/
theorem test_witness_WholeOpStepCompletesOneOperation :
    [mainOnly 0, State.reset, { State.reset with inIrq := [0x1600000000] }].all (fun s =>
      s.params.atomicScope == .wholeOp && s.owner == none && s.mainCtx == none) = true := by decide

/-- OutputsAndFaultsOnlyGrow and NoStepWritesTheParameters: a step that does both emit and answer. -/
theorem test_witness_OutputsAndFaultsOnlyGrow :
    gives (step (mainOnly 0x1000000005)) (fun t => t.trace.length == 6 && t.answers.length == 1) = true := by decide

/-- OnlySetupWritesChipCountAndFlag and ShadowsAreWrittenByTheirOwnGroup: every premise of theirs, a write of each shadow
included. -/
theorem test_witness_ShadowsAreWrittenByTheirOwnGroup :
    (∀ n, Instr.reset ≠ .setup n) ∧ gives (exec .setAllOn (ready 2)) (fun t => t.ctrl != 0) = true ∧
      gives (exec .setAllChannelsMapFalse (ready 2)) (fun t => t.inputMap != allMask 2) = true ∧
      gives (exec .setAllChannelsBooleanOr (ready 2)) (fun t => t.boolOp != allMask 2) = true := by
  exact ⟨(nofun), by decide, by decide, by decide⟩

/-- LifecycleOnIrqPortRaisesPortNotPermitted, before and after `setup`. -/
theorem test_witness_LifecycleOnIrqPortRaisesPortNotPermitted :
    ({ ready 2 with owner := some .irq } : State).owner = some .irq ∧
      gives (exec (.setup 2) { ready 2 with owner := some .irq }) (fun t => t.faults.map (·.code) == [.portNotPermitted]) =
        true ∧
      gives (exec .reset { fresh with owner := some .irq }) (fun t => t.faults.map (·.code) == [.portNotPermitted]) = true := by
  decide

/-- EverythingButSetupFaultsBeforeSetup: `reset` on MAIN, where its second exclusion does not apply. -/
theorem test_witness_EverythingButSetupFaultsBeforeSetup :
    fresh.owner = some .main ∧ fresh.initialized = false ∧ ¬(Instr.reset = .reset ∧ Port.main = .irq) ∧
      gives (exec .reset fresh) (fun t => t.faults.map (·.code) == [.notInitialized]) = true := by decide

/-- OutOfRangeIndexIsANoOp, and the format I clauses of every IndexRule statement (O24 to O26, O33, O34, O37, O38, O40,
O41): before `setup`; the last index in range; the first out of range. No index meets two of the clauses. -/
theorem test_witness_IndexRule :
    fresh.owner = some .main ∧ fresh.initialized = false ∧ (ready 2).owner = some .main ∧ (ready 2).initialized = true ∧
      (15#32).toNat < 8 * (ready 2).cc.toNat ∧ 8 * (ready 2).cc.toNat ≤ (16#32).toNat ∧
      (Instr.setChannel 16).format = .index ∧ (Instr.setChannel 16).operand = 16 := by decide

/-- The clauses of the MaskRule, PlainRule and QueryRule statements, on both ports. -/
theorem test_witness_MaskRule_PlainRule_QueryRule :
    [Port.main, .irq].all (fun p =>
      ({ ready 2 with owner := some p } : State).owner == some p && ({ ready 2 with owner := some p } : State).initialized &&
        !({ fresh with owner := some p } : State).initialized) = true := by decide

/-- SetupDrivesAllThreeRegisters: both states, and chip counts on both edges of R201's range. -/
theorem test_witness_SetupDrivesAllThreeRegisters :
    fresh.owner = some .main ∧ (ready 4).owner = some .main ∧
      [(0, 1), (1, 1), (4, 4), (5, 1)].all (fun c =>
        gives (exec (.setup (BitVec.ofNat 32 c.1)) (ready 4)) fun t => t.cc == c.2) = true := by decide

/-- ResetPulsesTheLineAndZeroesControl: its three cases. -/
theorem test_witness_ResetPulsesTheLineAndZeroesControl :
    fresh.initialized = false ∧ (ready 2).params.hasRst = false ∧ (under line (ready 2)).params.hasRst = true ∧
      (under line (ready 2)).owner = some .main := by decide

/-- SingleChannelOperationsChangeOneChannel and QueryAfterWriteReadsTheWrite: the last channel, and a channel beside it. -/
theorem test_witness_SingleChannelOperationsChangeOneChannel :
    (ready 4).initialized = true ∧ (31#32).toNat < 8 * (ready 4).cc.toNat ∧ 30 < 8 * (ready 4).cc.toNat ∧
      gives (exec (.setChannel 31) (ready 4)) (fun t => t.channelOn 31 && !t.channelOn 30) = true := by decide

/-- AllMaskCoversTheChain: the bits on both sides of the chain's end. -/
theorem test_witness_AllMaskCoversTheChain :
    (allMask 3).getLsbD 23 = true ∧ (allMask 3).getLsbD 24 = false := by decide

/-- ToggleAllTwiceRestores and ClearAfterSetRemovesTheMask. -/
theorem test_witness_Masked :
    ({ ready 2 with ctrl := 0x8001 } : State).initialized = true ∧ Masked 2 0x8001 ∧ ¬Masked 2 0x10000 := by
  simp only [Masked]
  decide

/-- FrameIsExactlyTheListedEvents: each clause's parameters. -/
theorem test_witness_FrameIsExactlyTheListedEvents :
    (ready 1).params.reconfigEachTxn = false ∧ (ready 1).cc = 1 ∧ (ready 4).cc = 4 ∧
      (under { Params.conventional with reconfigEachTxn := true } (ready 2)).params.reconfigEachTxn = true := by decide

/-- UninterruptedShadowOnlyEqualsWholeOp: MAIN alone under SHADOW_ONLY, with an operation that has a frame. -/
theorem test_witness_UninterruptedShadowOnlyEqualsWholeOp :
    OnlyPending .main 0x1000000005 (under shadowOnly (mainOnly 0x1000000005)) ∧
      gives (exec (.setChannel 5) { under shadowOnly (mainOnly 0x1000000005) with
        owner := some .main, cmd := 0x1000000005, pendMain := none }) (fun t => t.owner == some .main) = true := by
  refine ⟨?_, by decide⟩
  simp [OnlyPending, State.pending, mainOnly, under, ready, State.powerOn]

/-- IrqMayStartAtEveryPreemptionPoint, PreemptionGivesMainItsFrameBack and ResumedFrameSendsTheCapturedValue. -/
theorem test_witness_preemption :
    (atP2 0x2100000009).owner = some .main ∧ (atP2 0x2100000009).params.atomicScope = .shadowOnly ∧
      (atP2 0x2100000009).pendIrq = some 0x2100000009 ∧ (atP2 0x2100000009).ser ≠ .idle ∧
      (atP2 0x2100000009).sched = [true] ∧ ({ atP2 0x2100000009 with sched := [] } : State).sched = [] := by decide

/-- PreemptionGivesMainItsFrameBack's word decodes; ResumedFrameSendsTheCapturedValue's second clause: MAIN at pm (R84)
completes. And R65's order: after the data byte of chip 1 comes chip 0's command byte. -/
theorem test_witness_resumed_frame :
    decode 0x2100000009 = .legal (.setChannelMapFalse 9) ∧ ({ atP2 0 with ser := .idle } : State).owner = some .main ∧
      gives (stepWith false { atP2 0 with ser := .idle }) (fun t => t.owner == none && t.answers == [⟨.main, none⟩]) = true ∧
      gives (stepWith false (atP2 0)) (fun t => t.ser == .cmd 0 && t.trace.getLast? == some (.xfer 0)) = true := by decide

/-- FrameReachesEachChip and InterruptedFrameIsLostOnTheWire: a chain of two, and a frame cut at p2. -/
theorem test_witness_observer :
    chain.OfLength 2 ∧ .pin .cs false ∈ (frame .conventional 2 .ctrl 1).take 2 ∧
      .pin .cs true ∉ (frame .conventional 2 .ctrl 1).take 2 := by
  refine ⟨⟨by decide, by decide⟩, by decide, by decide⟩

end Sys2Proof.Machine.Tests
end

section
namespace Sys2Proof.Machine

/-! The bits of `all_mask` (spec/00_scope.md R8). -/

/-- `2^(8*cc) - 1` is a run of ones below `channel_count`; of a chain's 32 bits none is lost by the truncation, and
at a `cc` above 4, which no chain has, the run is cut at 32. -/
@[simp] theorem getLsbD_allMask (cc : BitVec 3) (j : Nat) :
    (allMask cc).getLsbD j = (decide (j < 32) && decide (j < channelCount cc)) := by
  rw [allMask, BitVec.getLsbD_ofNat, Nat.testBit_two_pow_sub_one]

/-- Settles O48: the four values by evaluation, the bitwise law from `getLsbD_allMask`. -/
theorem allMaskCoversTheChain : Obligations.AllMaskCoversTheChain := by
  refine ⟨⟨by decide, by decide, by decide, by decide⟩, fun cc j hj => ?_⟩
  rw [getLsbD_allMask, decide_eq_true hj, Bool.true_and, channelCount]

end Sys2Proof.Machine
end

section
namespace Sys2Proof.Machine

/-! A property of a step from a property of the operations. -/

/-- A relation that does not look at what is pending, still to come or chosen holds of every step, when it holds of staying
idle, of running a command, and of advancing the operation in progress. -/
theorem step_cases_on (P : State → State → Prop)
    (hpre : ∀ (s t : State) pm pi im ii sc d,
      P { s with pendMain := pm, pendIrq := pi, inMain := im, inIrq := ii, sched := sc, drawn := d } t → P s t)
    (hidle : ∀ s, P s s)
    (hcmd : ∀ s p w u, GrantedFrom s p w u → P s (raiseFault .illegalOpcode u) ∧ ∀ i t, Effect u i t → P s t)
    (hadv : ∀ s p, s.owner = some p → P s (advance s)) {s t : State} (h : step s = .next t) : P s t := by
  obtain ⟨u, hu, ha⟩ := step_action h
  have hP : P u t := ha.cases_on_effect P (hidle u) (hcmd u) (hadv u)
  exact hpre s t _ _ _ _ _ _ (hu ▸ hP)

/-! What every operation and every frame event keeps (R26, R28, R32, R33, R60). -/

/-- The events `es` bring both lines from their levels in `s` to those in `t` (R28). -/
abbrev LinesFollow (es : List Event) (s t : State) : Prop :=
  t.csN = es.foldl (levelAfter .cs) s.csN ∧ t.rstN = es.foldl (levelAfter .rst) s.rstN

/-- The parameters stay, the outputs and the fault records grow, the flag is not cleared, and the lines move as the new
events say. -/
structure Progress (s t : State) : Prop where
  params      : t.params = s.params
  initialized : s.initialized = true → t.initialized = true
  faults      : s.faults <+: t.faults
  answers     : s.answers <+: t.answers
  events      : ∃ es, t.trace = s.trace ++ es ∧ LinesFollow es s t

theorem Progress.trans {s t u : State} (h : Progress s t) (h' : Progress t u) : Progress s u := by
  obtain ⟨es, he, hc, hr⟩ := h.events
  obtain ⟨fs, hf, hc', hr'⟩ := h'.events
  refine ⟨h'.params.trans h.params, h'.initialized ∘ h.initialized, h.faults.trans h'.faults, h.answers.trans h'.answers,
    es ++ fs, ?_, ?_, ?_⟩
  · rw [hf, he, List.append_assoc]
  · rw [hc', hc, List.foldl_append]
  · rw [hr', hr, List.foldl_append]

/-- Nothing emitted: the lines stay. -/
theorem Progress.of_silent {s t : State} (hp : t.params = s.params) (hi : t.initialized = s.initialized)
    (hf : s.faults <+: t.faults) (ha : s.answers <+: t.answers) (ht : t.trace = s.trace) (hc : t.csN = s.csN)
    (hr : t.rstN = s.rstN) : Progress s t :=
  ⟨hp, hi.trans, hf, ha, [], by rw [ht, List.append_nil], hc, hr⟩

theorem Progress.refl (s : State) : Progress s s := by
  apply Progress.of_silent <;> simp

theorem finish_progress (v : Option Word) (s : State) : Progress s (finish v s) := by
  have h := finish_keeps v s
  apply Progress.of_silent <;> simp [h]

theorem raiseFault_progress (code : FaultCode) (s : State) : Progress s (raiseFault code s) := by
  obtain ⟨fs, hr, hp, -, -⟩ := recordFault_spec ⟨code, s.requester, s.cmd⟩ s
  have h : Progress s { s with faults := fs } := by apply Progress.of_silent <;> simp [hp]
  rw [raiseFault, complete, hr]
  exact h.trans (finish_progress none _)

/-- Transfers move no line. -/
theorem foldl_levelAfter_xfer (p : Pin) (bs : List Byte) (l : PinLevel) :
    (bs.map Event.xfer).foldl (levelAfter p) l = l := by
  induction bs with
  | nil => rfl
  | cons b bs ih => exact ih

/-- A frame leaves chip-select deasserted and the reset line alone (R66). -/
theorem foldl_levelAfter_frame (p : Pin) (l : PinLevel) (ps : Params) (cc : BitVec 3) (k : Kind) (v : Word) :
    (frame ps cc k v).foldl (levelAfter p) l = if p = .cs then .drive true else l := by
  cases h : ps.reconfigEachTxn <;> cases p <;>
    simp [frame, h, List.foldl_append, foldl_levelAfter_xfer, levelAfter, txnBeginEvent]

/-- `setup` opens both lines at their inactive levels (R200). -/
theorem foldl_levelAfter_openingEvents (p : Pin) (l : PinLevel) (ps : Params) :
    (openingEvents ps).foldl (levelAfter p) l = if p = .cs ∨ ps.hasRst = true then .drive true else l := by
  cases h : ps.hasRst <;> cases p <;> simp [openingEvents, h, levelAfter]

theorem writtenState_progress (k : Kind) (v : Word) (s : State) : Progress s (writtenState k v s) := by
  refine ⟨?_, ?_, ?_, ?_, frame s.params s.cc k v, ?_, ?_, ?_⟩ <;> simp [writtenState, foldl_levelAfter_frame]

theorem update_progress (k : Kind) (f : Word → Word) (s : State) : Progress s (update k f s) := by
  cases h : s.wholeFrame
  · rw [update_split k f h]
    apply Progress.of_silent <;> simp
  · rw [update_whole k f h]
    exact (writtenState_progress k _ s).trans (finish_progress none _)

theorem setupState_progress (n : Word) (s : State) : Progress s (setupState n s) := by
  refine ⟨rfl, fun _ => rfl, List.prefix_rfl, List.prefix_rfl, _, rfl, ?_, ?_⟩ <;>
    simp [setupState, List.foldl_append, foldl_levelAfter_frame, foldl_levelAfter_openingEvents]

theorem resetState_progress (s : State) : Progress s (resetState s) :=
  ⟨rfl, id, List.prefix_rfl, List.prefix_rfl, _, rfl, rfl, rfl⟩

theorem Effect.progress {s t : State} {i : Instr} (h : Effect s i t) : Progress s t := by
  cases h with
  | fault _ code => exact raiseFault_progress code s
  | ignored | noLine => exact finish_progress none s
  | write _ k f _ _ => exact update_progress k f s
  | answer _ v _ _ => exact finish_progress (some v) s
  | setup n _ => exact (setupState_progress n s).trans (finish_progress none _)
  | pulse _ _ _ => exact (resetState_progress s).trans (finish_progress none _)

/-- The event a position of the frame names (R65). -/
def positionEvent (k : Kind) (v : Word) : SerPos → Event
  | .pre => txnBeginEvent
  | .cslo => .pin .cs false
  | .cmd _ => .xfer (writeCmd k)
  | .data ic => .xfer (chipByte v ic)
  | .cshi => .pin .cs true
  | .post | .idle => .txnEnd

theorem chipsLeft_eq (n : Nat) : chipsLeft n = if n = 0 then .cshi else .cmd (n - 1) := by
  cases n <;> rfl

/-- One frame event in closed form: its position's event, the line it drives, and the position that follows. -/
theorem serStep_eq {s : State} (h : s.ser ≠ .idle) :
    serStep s = { s with
      ser := s.ser.following s.params s.cc
      csN := levelAfter .cs s.csN (positionEvent s.serKind s.serVal s.ser)
      trace := s.trace ++ [positionEvent s.serKind s.serVal s.ser] } := by
  cases hp : s.ser with
  | idle => exact absurd hp h
  | pre | cmd ic | cshi | post => simp only [serStep, hp]; rfl
  | data ic => simp only [serStep, hp, chipsLeft_eq]; rfl
  | cslo =>
    have hz : s.cc.toNat = 0 ↔ s.cc = 0 := by rw [← BitVec.toNat_inj]; rfl
    simp only [serStep, hp, chipsLeft_eq, hz]; rfl

/-- No position of a frame moves the reset line. -/
theorem levelAfter_rst_positionEvent (l : PinLevel) (k : Kind) (v : Word) (pos : SerPos) :
    levelAfter .rst l (positionEvent k v pos) = l := by
  cases pos <;> rfl

theorem serStep_progress {s : State} (h : s.ser ≠ .idle) : Progress s (serStep s) := by
  rw [serStep_eq h]
  exact ⟨rfl, id, List.prefix_rfl, List.prefix_rfl, _, rfl, rfl, (levelAfter_rst_positionEvent ..).symm⟩

theorem advance_progress (s : State) : Progress s (advance s) := by
  rcases advance_cases s with ⟨e, -⟩ | ⟨e, h⟩ <;> rw [e]
  · exact finish_progress none s
  · exact serStep_progress h

/-- Giving the block to a port, MAIN suspended or not, emits and records nothing. -/
theorem GrantedFrom.progress {s u : State} {p : Port} {w : Command} (h : GrantedFrom s p w u) : Progress s u := by
  rcases h with ⟨rfl, -⟩ | ⟨-, rfl, -⟩ <;> apply Progress.of_silent <;> simp

theorem step_progress {s t : State} (h : step s = .next t) : Progress s t :=
  step_cases_on Progress (fun _ _ _ _ _ _ _ _ h => ⟨h.params, h.initialized, h.faults, h.answers, h.events⟩) Progress.refl
    (fun _ _ _ u hu =>
      ⟨hu.progress.trans (raiseFault_progress _ u), fun _ _ he => hu.progress.trans he.progress⟩)
    (fun s _ _ => advance_progress s) h

/-- Settles O17: `Progress` of a step, whose events are what the trace grew by. -/
theorem outputsAndFaultsOnlyGrow : Obligations.OutputsAndFaultsOnlyGrow := by
  intro s t h
  obtain ⟨-, -, hf, ha, es, he, -⟩ := step_progress h
  exact ⟨⟨es, he.symm⟩, hf, ha⟩

/-- Settles O18: `Progress` of a step. -/
theorem noStepWritesTheParameters : Obligations.NoStepWritesTheParameters :=
  fun _ _ h => (step_progress h).params

/-- Settles O6: a step moves the lines as its own new events say. -/
theorem everyStepKeepsPinsAtTraceLevels : Obligations.EveryStepKeepsPinsAtTraceLevels := by
  rintro s t ⟨hcs, hrst⟩ h
  obtain ⟨es, he, hc, hr⟩ := (step_progress h).events
  constructor
  · rw [hc, hcs, he, lastLevel, lastLevel, List.foldl_append]
  · rw [hr, hrst, he, lastLevel, lastLevel, List.foldl_append]

end Sys2Proof.Machine
end

section
namespace Sys2Proof.Machine

/-! What each operation may write (R24, R25, R26). -/

theorem update_keeps (k : Kind) (f : Word → Word) (s : State) :
    (update k f s).cc = s.cc ∧ (update k f s).initialized = s.initialized ∧
      ∀ j, j ≠ k → (update k f s).shadow j = s.shadow j := by
  obtain ⟨-, hj, hc, hi, -⟩ := update_wrote k f (s := s) rfl
  exact ⟨hc, hi, hj⟩

/-- What an operation other than `setup` may write: no chip count and no flag, and of the shadows its own group's, or
`S[CTRL]` by `reset`. -/
def WritesOwnGroup (i : Instr) (s t : State) : Prop :=
  t.cc = s.cc ∧ t.initialized = s.initialized ∧
    ∀ k, t.shadow k ≠ s.shadow k → i.opcode.extractLsb' 4 4 = k.group ∨ (k = .ctrl ∧ i = .reset)

theorem NothingWritten.writesOwnGroup {p : Port} {s t : State} (h : NothingWritten p s t) (i : Instr) :
    WritesOwnGroup i s t := by
  obtain ⟨hk, hc, hi, -⟩ := h
  exact ⟨hc, hi, fun k hne => absurd (hk k) hne⟩

theorem Effect.writesOwnGroup {i : Instr} {s t : State} (h : Effect s i t) (hn : ∀ n, i ≠ .setup n) :
    WritesOwnGroup i s t := by
  cases h with
  | ignored | answer | noLine => exact (finish_onlyAnswered _ rfl).1.writesOwnGroup _
  | fault _ code => exact (raiseFault_faulted code rfl).1.writesOwnGroup i
  | setup n => exact absurd rfl (hn n)
  | write _ k f _ hg =>
    obtain ⟨hc, hi, hj⟩ := update_keeps k f s
    refine ⟨hc, hi, fun j hne => .inl ?_⟩
    obtain rfl : j = k := Decidable.not_not.mp fun hjk => hne (hj j hjk)
    exact hg
  | pulse =>
    obtain ⟨⟨hk, hc, hi, -⟩, -⟩ := finish_onlyAnswered none (s := resetState s) rfl
    refine ⟨hc, hi, fun k hne => ?_⟩
    cases k
    · exact .inr ⟨rfl, rfl⟩
    · exact absurd (hk .map) hne
    · exact absurd (hk .bool) hne

/-- Settles O19: the first clause by `WritesOwnGroup`, the second by `Progress`. -/
theorem onlySetupWritesChipCountAndFlag : Obligations.OnlySetupWritesChipCountAndFlag := by
  refine ⟨fun i s t h hn => ?_, fun s t h => (step_progress h).initialized⟩
  obtain ⟨hc, hi, -⟩ := (effect_of_exec h).writesOwnGroup hn
  exact ⟨hc, hi⟩

/-- Settles O20: `WritesOwnGroup` read for each shadow; only `S[CTRL]` is one that `reset` writes. -/
theorem shadowsAreWrittenByTheirOwnGroup : Obligations.ShadowsAreWrittenByTheirOwnGroup := by
  intro i s t h hn
  obtain ⟨-, -, hk⟩ := (effect_of_exec h).writesOwnGroup hn
  refine ⟨fun hne => ?_, fun hne => ?_, fun hne => ?_⟩
  · exact (hk .ctrl hne).imp_right And.right
  · exact (hk .map hne).resolve_right fun h => nomatch h.1
  · exact (hk .bool hne).resolve_right fun h => nomatch h.1

end Sys2Proof.Machine
end

section
namespace Sys2Proof.Machine

/-! The safe state (R23, R25, R29, R32, R83, R85). -/

/-- Settles O2: the shadows are 0, nothing is owned and nothing is recorded. -/
theorem safeStateAtPowerOn : Obligations.SafeStateAtPowerOn := by
  intro p
  have hcc : 1 ≤ (1 : BitVec 3).toNat ∧ (1 : BitVec 3).toNat ≤ 4 := by decide
  refine ⟨hcc, fun k => ?_, List.nodup_nil, ⟨rfl, nofun⟩, nofun, fun _ => rfl, trivial⟩
  cases k <;> exact masked_zero _

/-- Settles O1: every clause is a field of `State.powerOn`, and nothing is pending for the step to take. -/
theorem powerOnStateIsAsListed : Obligations.PowerOnStateIsAsListed := by
  intro p
  refine ⟨fun k => ?_, rfl, rfl, rfl, rfl, rfl, rfl, rfl, rfl, rfl, rfl, rfl⟩
  cases k <;> rfl

/-- What `Inv` says of a state while an operation runs in it: the registers and the records are safe, and so is the state
the operation hands back, which is the idle block, or MAIN's suspended frame when it interrupted one (R86). -/
structure Running (s : State) : Prop where
  chips     : 1 ≤ s.cc.toNat ∧ s.cc.toNat ≤ 4
  masked    : ∀ k, Masked s.cc (s.shadow k)
  recordSet : s.faults.Nodup
  alone     : s.interrupted = none → s.mainCtx = none ∧ s.ser = .idle
  suspended : ∀ c, s.interrupted = some c →
    s.params.atomicScope = .shadowOnly ∧ s.initialized = true ∧ c.ser.Within s.cc

theorem interrupted_eq_none_of_owner {s : State} (h : s.owner ≠ some .irq) : s.interrupted = none := if_neg h

theorem interrupted_eq_none_of_requester {s : State} (h : s.requester = .main) : s.interrupted = none := by
  apply interrupted_eq_none_of_owner
  intro ho
  rw [requester_of_owner ho] at h
  cases h

/-- An operation that completes hands back a safe state. -/
theorem Running.finish {s : State} (h : Running s) (v : Option Word) : Inv (finish v s) := by
  cases hc : s.interrupted with
  | none =>
    obtain ⟨hm, hs⟩ := h.alone hc
    rw [finish_idle v hc]
    exact ⟨h.chips, h.masked, h.recordSet, ⟨hm, nofun⟩, nofun, fun _ => hs, hs ▸ trivial⟩
  | some c =>
    obtain ⟨hp, hi, hw⟩ := h.suspended c hc
    rw [finish_interrupted v hc]
    exact ⟨h.chips, h.masked, h.recordSet, ⟨rfl, nofun⟩, fun _ => ⟨hp, hi⟩, nofun, hw⟩

theorem Running.fault {s : State} (h : Running s) (code : FaultCode) : Inv (raiseFault code s) := by
  obtain ⟨fs, hr, -, -, hn⟩ := recordFault_spec ⟨code, s.requester, s.cmd⟩ s
  have hR : Running { s with faults := fs } := ⟨h.chips, h.masked, hn h.recordSet, h.alone, h.suspended⟩
  rw [raiseFault, complete, hr]
  exact hR.finish none

/-- Storing a masked value keeps every shadow masked. -/
theorem masked_setShadow {s : State} {v : Word} (h : ∀ k, Masked s.cc (s.shadow k)) (hv : Masked s.cc v) (k j : Kind) :
    Masked s.cc ((setShadow k v s).shadow j) := by
  by_cases hj : j = k
  · rw [hj, shadow_setShadow_same]; exact hv
  · rw [shadow_setShadow_other hj]; exact h j

/-- Only MAIN under SHADOW_ONLY gives up the arbiter before its frame (R84, R85). -/
theorem wholeFrame_eq_false {s : State} (h : s.wholeFrame = false) :
    s.params.atomicScope = .shadowOnly ∧ s.requester = .main := by
  simp only [State.wholeFrame, Bool.or_eq_false_iff, beq_eq_false_iff_ne] at h
  obtain ⟨hp, hr⟩ := h
  constructor
  · cases hs : s.params.atomicScope
    · exact absurd hs hp
    · rfl
  · cases hs : s.requester
    · rfl
    · exact absurd hs hr

theorem Running.writtenState {s : State} (h : Running s) {v : Word} (hv : Masked s.cc v) (k : Kind) :
    Running (writtenState k v s) := by
  have hm := masked_setShadow h.masked hv k
  cases k <;> exact ⟨h.chips, hm, h.recordSet, fun ha => ⟨(h.alone ha).1, rfl⟩, h.suspended⟩

/-- A frame that MAIN begins under SHADOW_ONLY (R84: p0). -/
theorem Running.inv_beginFrame {s : State} (h : Running s) (hi : s.initialized = true) (hw : s.wholeFrame = false)
    {v : Word} (hv : Masked s.cc v) (k : Kind) : Inv (beginFrame k v (setShadow k v s)) := by
  obtain ⟨hp, hr⟩ := wholeFrame_eq_false hw
  obtain ⟨hc, -⟩ := h.alone (interrupted_eq_none_of_requester hr)
  have ho : (beginFrame k v (setShadow k v s)).owner = some .main := by
    simpa [State.requester] using hr
  have hm := masked_setShadow h.masked hv k
  refine ⟨by simpa using h.chips, fun j => ?_, by simpa using h.recordSet, ⟨by simpa using hc, by simp only [ho]; nofun⟩,
    fun _ => by simpa using ⟨hp, hi⟩, fun hn => (nomatch ho.symm.trans hn), ?_⟩
  · rw [beginFrame_cc, setShadow_cc]
    exact hm j
  · rw [beginFrame_ser, frameStart]
    split <;> trivial

theorem Running.update {s : State} (h : Running s) (hi : s.initialized = true) (k : Kind) (f : Word → Word) :
    Inv (update k f s) := by
  have hv : Masked s.cc (updated k f s) := masked_and s.cc _
  cases hw : s.wholeFrame
  · rw [update_split k f hw]
    exact h.inv_beginFrame hi hw hv k
  · rw [update_whole k f hw]
    exact (h.writtenState hv k).finish none

/-- `setup` takes a legal chip count whatever its operand (R201). -/
theorem clampChips_legal (n : Word) : 1 ≤ (clampChips n).toNat ∧ (clampChips n).toNat ≤ 4 := by
  unfold clampChips
  split
  · rename_i h
    rw [BitVec.toNat_ofNat, Nat.mod_eq_of_lt (Nat.lt_of_le_of_lt h.2 (by decide))]
    exact h
  · decide

theorem masked_andAll (p : Params) (cc : BitVec 3) : Masked cc (andAll p cc) := by
  unfold andAll
  split
  · exact masked_allMask cc
  · exact masked_zero cc

theorem Running.setupState {s : State} (h : Running s) (hr : s.requester = .main) (n : Word) :
    Running (setupState n s) := by
  have ha := interrupted_eq_none_of_requester hr
  refine ⟨clampChips_legal n, fun k => ?_, h.recordSet, fun _ => ⟨(h.alone ha).1, rfl⟩, fun c hc => ?_⟩
  · cases k
    · exact masked_zero _
    · exact masked_allMask _
    · exact masked_andAll _ _
  · cases ha.symm.trans hc

theorem Running.resetState {s : State} (h : Running s) : Running (resetState s) := by
  refine ⟨h.chips, fun k => ?_, h.recordSet, h.alone, h.suspended⟩
  cases k
  · exact masked_zero _
  · exact h.masked .map
  · exact h.masked .bool

/-- Every operation run in such a state leads to a safe state. -/
theorem Running.effect {s t : State} {i : Instr} (h : Running s) (he : Effect s i t) : Inv t := by
  cases he with
  | fault _ code => exact h.fault code
  | ignored | noLine => exact h.finish none
  | write _ k f hi _ => exact h.update hi k f
  | answer _ v => exact h.finish (some v)
  | setup n hr => exact (h.setupState hr n).finish none
  | pulse => exact h.resetState.finish none

/-- The block of a safe state, granted to a port at idle or to IRQ over MAIN's frame (R81, R86). -/
theorem Inv.granted {s u : State} {p : Port} {w : Command} (h : Inv s) (hu : GrantedFrom s p w u) : Running u := by
  obtain ⟨hctx, -⟩ := h.settled
  rcases hu with ⟨rfl, ho⟩ | ⟨rfl, rfl, hpt⟩
  · have hc : (grant p w s).mainCtx = none := by rw [grant_mainCtx, hctx]
    have hn : (grant p w s).interrupted = none := by rw [State.interrupted, hc, ite_self]
    refine ⟨by simpa using h.chips, fun k => ?_, by simpa using h.recordSet, fun _ => ⟨hc, ?_⟩, fun c hs => ?_⟩
    · cases p <;> exact h.masked k
    · rw [grant_ser, h.resting ho]
    · cases hn.symm.trans hs
  · have ho : s.owner = some .main := by
      simp only [atPreemptionPoint, Bool.and_eq_true, beq_iff_eq] at hpt
      exact hpt.1
    obtain ⟨hp, hi⟩ := h.mainOwns ho
    refine ⟨h.chips, h.masked, h.recordSet, nofun, fun c hs => ?_⟩
    cases hs
    exact ⟨hp, hi, h.within⟩

/-- The position after one of a frame is one of that frame too. -/
theorem following_within {p : Params} {cc : BitVec 3} {pos : SerPos} (h : pos.Within cc) :
    (pos.following p cc).Within cc := by
  cases pos with
  | idle | pre | post => trivial
  | cmd ic => exact h
  | cslo =>
    simp only [SerPos.following]
    split
    · trivial
    · rename_i hz
      exact Nat.sub_one_lt fun h0 => hz (BitVec.eq_of_toNat_eq h0)
  | data ic =>
    simp only [SerPos.following]
    split
    · trivial
    · exact Nat.lt_of_le_of_lt (Nat.sub_le ..) h
  | cshi =>
    simp only [SerPos.following]
    split <;> trivial

/-- Performing a frame event, or completing the operation whose frame is over, keeps the state safe. -/
theorem Inv.advance {s : State} {p : Port} (h : Inv s) (ho : s.owner = some p) : Inv (advance s) := by
  rcases advance_cases s with ⟨e, hs⟩ | ⟨e, hs⟩ <;> rw [e]
  · have hn : s.interrupted = none := interrupted_eq_none_of_owner h.settled.2
    have hr : Running s :=
      ⟨h.chips, h.masked, h.recordSet, fun _ => ⟨h.settled.1, hs⟩, fun c hc => nomatch hn.symm.trans hc⟩
    exact hr.finish none
  · rw [serStep_eq hs]
    exact ⟨h.chips, h.masked, h.recordSet, h.settled, h.mainOwns, fun hno => (nomatch ho.symm.trans hno),
      following_within h.within⟩

/-- Settles O3: what an operation finds is `Running`, and from there every effect hands back a safe state. -/
theorem everyStepKeepsSafeState : Obligations.EveryStepKeepsSafeState := by
  intro s t hs h
  refine step_cases_on (fun s t => Inv s → Inv t) (fun s t _ _ _ _ _ _ hP h => hP ?_) (fun _ => id) ?_ ?_ h hs
  · exact ⟨h.chips, h.masked, h.recordSet, h.settled, h.mainOwns, h.resting, h.within⟩
  · exact fun s p w u hu =>
      ⟨fun h => (h.granted hu).fault _, fun i t he h => (h.granted hu).effect he⟩
  · exact fun s p ho h => h.advance ho

end Sys2Proof.Machine
end

section
namespace Sys2Proof.Machine

/-! The single-channel operations in terms of channels (R21, R22). -/

/-- `1 << i` is the bit of channel i (R10). -/
theorem getLsbD_channelBit (i : Word) {j : Nat} (hj : j < 32) : (channelBit i).getLsbD j = (j == i.toNat) := by
  rw [channelBit, ← BitVec.twoPow_eq, BitVec.getLsbD_twoPow]
  by_cases h : i.toNat = j
  · simp only [h, hj, decide_true, Bool.and_self, BEq.rfl]
  · rw [decide_eq_false h, Bool.and_false, beq_eq_false_iff_ne.mpr (Ne.symm h)]

/-- `b << i` has the bit of channel i when `b` is 1, and no bit otherwise. -/
theorem getLsbD_bitAt (b : Bool) (i : Word) {j : Nat} (hj : j < 32) : (bitAt b i).getLsbD j = (b && j == i.toNat) := by
  cases b
  · simp [bitAt]
  · rw [bitAt, if_pos rfl, getLsbD_channelBit i hj, Bool.true_and]

/-- An operation of format I in range gives each channel of the chain the bit its function computes; the mask of R13 takes
none of them away. -/
theorem indexOp_getLsbD {s : State} {i : Word} {j : Nat} (k : Kind) (f : Word → Word) (hs : s.initialized = true)
    (hi : i.toNat < 8 * s.cc.toNat) (hj : j < 8 * s.cc.toNat) (hj' : j < 32) :
    Gives (indexOp k i f s) fun t => (t.shadow k).getLsbD j = (f (s.shadow k)).getLsbD j ∧ t.params = s.params := by
  obtain ⟨t, ht, hk, -, -, -, -, -, ⟨hp, -⟩, -⟩ := (indexOp_after k i f rfl hs).1 hi
  refine ⟨t, ht, ?_, hp⟩
  rw [hk, BitVec.getLsbD_and, getLsbD_allMask, channelCount, decide_eq_true hj, decide_eq_true hj', Bool.and_true,
    Bool.and_true]

/-- What holds of a state that an operation gives may be weakened. -/
theorem Gives.imp {o : Answered} {P Q : State → Prop} (h : Gives o P) (hPQ : ∀ t, P t → Q t) : Gives o Q := by
  obtain ⟨t, ht, hP⟩ := h
  exact ⟨t, ht, hPQ t hP⟩

/-- Settles O43: each operation computes one bit function; the rest is what a set bit of the register means. -/
theorem singleChannelOperationsChangeOneChannel : Obligations.SingleChannelOperationsChangeOneChannel := by
  intro s i j hs hi hj hj'
  have bit (k : Kind) (f : Word → Word) := indexOp_getLsbD k f hs hi hj hj'
  have hb := getLsbD_channelBit i hj'
  have ha (b : Bool) := getLsbD_bitAt b i hj'
  refine ⟨(bit .ctrl _).imp ?_, (bit .ctrl _).imp ?_, (bit .ctrl _).imp ?_, (bit .map _).imp ?_, (bit .map _).imp ?_,
    (bit .bool _).imp ?_, (bit .bool _).imp ?_⟩ <;>
    rintro t ⟨ht, hp⟩ <;>
    simp only [State.shadow, BitVec.getLsbD_or, BitVec.getLsbD_and, BitVec.getLsbD_xor, BitVec.getLsbD_not, hj',
      decide_true, Bool.true_and, hb, ha] at ht
  · exact ht
  · exact ht
  · exact ht
  · simpa [State.channelMapped, Config.mapTrueBit] using ht
  · simpa [State.channelMapped, Config.mapTrueBit, bne] using ht
  · rw [State.channelAnds, State.channelAnds, hp, ht]
    cases s.boolOp.getLsbD j <;> cases s.params.andBit <;> cases j == i.toNat <;> rfl
  · rw [State.channelAnds, State.channelAnds, hp, ht, bne]
    cases s.boolOp.getLsbD j <;> cases s.params.andBit <;> cases j == i.toNat <;> rfl

end Sys2Proof.Machine
end

section
namespace Sys2Proof.Machine

/-! The frame event by event (R29, R65, R87, R88). -/

theorem serRun_add (m n : Nat) (s : State) : serRun (m + n) s = serRun n (serRun m s) := by
  induction m generalizing s with
  | zero => rw [Nat.zero_add]; rfl
  | succ m ih => rw [Nat.succ_add]; exact ih (serStep s)

/-- The chip loop: from `n` chips left to the end of the loop, two events for each. -/
theorem serRun_chipsLeft (n : Nat) {s : State} (h : s.ser = chipsLeft n) :
    serRun (2 * n) s = { s with
      ser := .cshi, trace := s.trace ++ (frameBytes n s.serKind s.serVal).map .xfer } := by
  induction n generalizing s with
  | zero => simp [serRun, frameBytes, ← show s.ser = .cshi from h]
  | succ n ih =>
    have hs : serRun 2 s = { s with
        ser := chipsLeft n, trace := s.trace ++ [.xfer (writeCmd s.serKind), .xfer (chipByte s.serVal n)] } := by
      simp [serRun, serStep, h, chipsLeft, emit]
    rw [Nat.mul_succ, Nat.add_comm, serRun_add, hs, ih rfl]
    simp [frameBytes_succ]

/-- The number of frame events before the chip loop, and of those after it (R66). -/
def edgeLength (p : Params) : Nat := if p.reconfigEachTxn then 2 else 1

theorem frameLength_eq (p : Params) (cc : BitVec 3) :
    frameLength p cc = edgeLength p + 2 * cc.toNat + edgeLength p := by
  unfold frameLength edgeLength
  split <;> omega

/-- Settles O53: the events before the chip loop, the loop, and those after it. -/
theorem eventByEventFrameEqualsChainWrite : Obligations.EventByEventFrameEqualsChainWrite := by
  intro s k v
  have hloop : (serRun (edgeLength s.params) (beginFrame k v s)).ser = chipsLeft s.cc.toNat := by
    cases h : s.params.reconfigEachTxn <;> simp [edgeLength, serRun, serStep, frameStart, h]
  rw [frameLength_eq, serRun_add, serRun_add, serRun_chipsLeft s.cc.toNat hloop, chainWrite_eq]
  cases h : s.params.reconfigEachTxn <;>
    simp [edgeLength, serRun, serStep, beginFrame, frameStart, driveCs, emit, frame, h, Config.csActive]

/-- While a port owns the block and no IRQ command is let in, the operation in progress goes on (R84). -/
theorem stepWith_false_of_owner {s : State} {p : Port} (h : s.owner = some p) :
    stepWith false s = .next (advance s) := by
  simp [stepWith, h]

/-- Settles O57: the event of each position is `positionEvent`, and the completion is `finish`. -/
theorem resumedFrameSendsTheCapturedValue : Obligations.ResumedFrameSendsTheCapturedValue := by
  intro s ho
  rw [stepWith_false_of_owner ho]
  constructor
  · intro hs
    rw [advance, if_neg hs, serStep_eq hs]
    cases h : s.ser <;> rfl
  · intro hs
    rw [advance, if_pos hs]
    exact ⟨_, rfl, finish_onlyAnswered none (requester_of_owner ho)⟩

end Sys2Proof.Machine
end

section
namespace Sys2Proof.Machine

/-! The trace read as frames, under WHOLE_OP (R66, R70, R90). -/

/-- Settles O4: nothing is on the trace, and nothing is initialized. -/
theorem wireAgreesAtPowerOn : Obligations.WireAgreesAtPowerOn :=
  fun _ hp => ⟨⟨rfl, rfl, hp⟩, ⟨rfl, rfl⟩, nofun, nofun, nofun⟩

theorem readWire_append (t es : List Event) : readWire (t ++ es) = es.foldl Wire.read (readWire t) :=
  List.foldl_append

/-- The reader once it has seen a whole frame of kind `k` with the bytes `bs`. -/
def Wire.recorded (k : Kind) (bs : List Byte) (w : Wire) : Wire :=
  match k with
  | .ctrl => { w with ctrl := some bs }
  | .map => { w with map := some bs }
  | .bool => { w with bool := some bs }

@[simp] theorem Wire.recorded_window (k : Kind) (bs : List Byte) (w : Wire) : (w.recorded k bs).window = w.window := by
  cases k <;> rfl

@[simp] theorem Wire.recorded_stray (k : Kind) (bs : List Byte) (w : Wire) : (w.recorded k bs).stray = w.stray := by
  cases k <;> rfl

@[simp] theorem Wire.recorded_last (k j : Kind) (bs : List Byte) (w : Wire) :
    (w.recorded k bs).last j = if j = k then some bs else w.last j := by
  cases k <;> cases j <;> rfl

/-- Transfers inside a window join its bytes. -/
theorem Wire.foldl_read_xfer (bs acc : List Byte) {w : Wire} (h : w.window = some acc) :
    (bs.map Event.xfer).foldl Wire.read w = { w with window := some (acc ++ bs) } := by
  induction bs generalizing w acc with
  | nil => rw [List.append_nil, ← h]; rfl
  | cons b bs ih =>
    have hb : w.read (.xfer b) = { w with window := some (acc ++ [b]) } := by simp only [Wire.read, h]
    rw [List.map_cons, List.foldl_cons, hb, ih (acc ++ [b]) rfl, List.append_assoc]
    rfl

/-- The end of a window with bytes in it: the command byte tells the reader the kind of the frame (R66, R117). -/
theorem Wire.read_close {k : Kind} {bs : List Byte} {w : Wire} (h : w.window = some (writeCmd k :: bs)) :
    w.read (.pin .cs true) = { w.recorded k (writeCmd k :: bs) with window := none } := by
  simp only [Wire.read, h]
  cases k <;> rfl

/-- A frame for at least one chip, read with no window open, is recorded and leaves none open (R66). -/
theorem Wire.foldl_read_frame (p : Params) {cc : BitVec 3} (k : Kind) (v : Word) {w : Wire} (hcc : 1 ≤ cc.toNat)
    (hw : w.window = none) : (frame p cc k v).foldl Wire.read w = w.recorded k (frameBytes cc.toNat k v) := by
  obtain ⟨n, hn⟩ := Nat.exists_eq_add_of_le' hcc
  obtain ⟨bs, hbs⟩ : ∃ bs, frameBytes cc.toNat k v = writeCmd k :: bs := ⟨_, hn ▸ frameBytes_succ n k v⟩
  have hopen : w.read (.pin .cs false) = { w with window := some [] } := by simp [Wire.read, hw]
  have hbytes := Wire.foldl_read_xfer (frameBytes cc.toNat k v) [] (w := { w with window := some [] }) rfl
  have hclose : Wire.read { w with window := some (writeCmd k :: bs) } (.pin .cs true) =
      w.recorded k (writeCmd k :: bs) := by
    rw [Wire.read_close rfl]
    cases k <;> simp only [Wire.recorded, hw]
  have hbegin : w.read txnBeginEvent = w := rfl
  have hend (u : Wire) : u.read .txnEnd = u := rfl
  rw [hbs] at hbytes ⊢
  cases hp : p.reconfigEachTxn <;>
    simp [-List.map_cons, frame, hp, hbs, hbegin, hopen, hbytes, hclose, hend]

/-! What the invariant says, kind by kind. -/

/-- The reader's last frame of kind `k` carries the shadow `v`; for Control after a reset pulse with no Control frame since,
the shadow is 0 instead (R90, R206). -/
def Wire.Shows (w : Wire) (cc : BitVec 3) (k : Kind) (v : Word) : Prop :=
  w.last k = some (frameBytes cc.toNat k v) ∨ (k = .ctrl ∧ w.last k = none ∧ v = 0)

theorem wireAgrees_iff (s : State) : WireAgrees s ↔
    (s.owner = none ∧ s.mainCtx = none ∧ s.params.atomicScope = .wholeOp) ∧
      ((readWire s.trace).window = none ∧ (readWire s.trace).stray = false) ∧
      (s.initialized = true → ∀ k, (readWire s.trace).Shows s.cc k (s.shadow k)) := by
  constructor
  · rintro ⟨hr, hw, hm, hb, hc⟩
    refine ⟨hr, hw, fun hi k => ?_⟩
    cases k
    · exact (hc hi).imp_right fun h => ⟨rfl, h⟩
    · exact .inl (hm hi)
    · exact .inl (hb hi)
  · rintro ⟨hr, hw, hk⟩
    refine ⟨hr, hw, fun hi => ?_, fun hi => ?_, fun hi => ?_⟩
    · exact (hk hi .map).resolve_right nofun
    · exact (hk hi .bool).resolve_right nofun
    · exact (hk hi .ctrl).imp_right And.right

/-- After a whole frame the reader shows its value. -/
theorem Wire.recorded_shows (w : Wire) (cc : BitVec 3) (k : Kind) (v : Word) :
    (w.recorded k (frameBytes cc.toNat k v)).Shows cc k v :=
  .inl (by rw [Wire.recorded_last, if_pos rfl])

/-- A frame of another kind changes nothing of what the reader shows. -/
theorem Wire.recorded_shows_other {k j : Kind} (h : j ≠ k) {w : Wire} {cc : BitVec 3} {v : Word} (bs : List Byte)
    (hs : w.Shows cc j v) : (w.recorded k bs).Shows cc j v := by
  rwa [Wire.Shows, Wire.recorded_last, if_neg h]

/-! What an operation does to the agreement. -/

/-- The wire invariant of a state in which an operation runs: it holds once the block is handed back. -/
def AgreesOnReturn (s : State) : Prop := WireAgrees { s with owner := none }

theorem AgreesOnReturn.interrupted {s : State} (h : AgreesOnReturn s) : s.interrupted = none := by
  obtain ⟨-, hm, -⟩ := h.atRest
  rw [State.interrupted, show s.mainCtx = none from hm, ite_self]

theorem AgreesOnReturn.wholeFrame {s : State} (h : AgreesOnReturn s) : s.wholeFrame = true := by
  obtain ⟨-, -, hp⟩ := h.atRest
  rw [State.wholeFrame, show s.params.atomicScope = .wholeOp from hp]; rfl

theorem AgreesOnReturn.finish {s : State} (h : AgreesOnReturn s) (v : Option Word) : WireAgrees (finish v s) := by
  rw [finish_idle v h.interrupted]
  exact ⟨h.atRest, h.windows, h.map, h.bool, h.ctrl⟩

theorem AgreesOnReturn.fault {s : State} (h : AgreesOnReturn s) (code : FaultCode) : WireAgrees (raiseFault code s) := by
  obtain ⟨fs, hr, -⟩ := recordFault_spec ⟨code, s.requester, s.cmd⟩ s
  have hf : AgreesOnReturn { s with faults := fs } := ⟨h.atRest, h.windows, h.map, h.bool, h.ctrl⟩
  rw [raiseFault, complete, hr]
  exact hf.finish none

/-- A register write and its frame: the reader shows the new value, and of the other kinds what it showed before. -/
theorem AgreesOnReturn.writtenState {s : State} (h : AgreesOnReturn s) (hcc : 1 ≤ s.cc.toNat) (k : Kind) (v : Word) :
    AgreesOnReturn (writtenState k v s) := by
  obtain ⟨hr, ⟨hw, hstray⟩, hk⟩ := (wireAgrees_iff _).mp h
  have hread : readWire (s.trace ++ frame s.params s.cc k v) =
      (readWire s.trace).recorded k (frameBytes s.cc.toNat k v) :=
    (readWire_append ..).trans (Wire.foldl_read_frame _ k v hcc hw)
  refine (wireAgrees_iff _).mpr ⟨by simpa [Machine.writtenState] using hr, ?_, fun hi j => ?_⟩
  · change (readWire (_ ++ _)).window = _ ∧ (readWire (_ ++ _)).stray = _
    rw [hread, Wire.recorded_window, Wire.recorded_stray]
    exact ⟨hw, hstray⟩
  · change (readWire (_ ++ _)).Shows (setShadow k v s).cc j ((setShadow k v s).shadow j)
    rw [hread, setShadow_cc]
    by_cases hj : j = k
    · rw [hj, shadow_setShadow_same]
      exact Wire.recorded_shows ..
    · rw [shadow_setShadow_other hj]
      exact Wire.recorded_shows_other hj _ (hk (by simpa [Machine.writtenState] using hi) j)

/-- A reset pulse makes the reader forget the Control frame (R206) and nothing else. -/
theorem AgreesOnReturn.resetState {s : State} (h : AgreesOnReturn s) : AgreesOnReturn (resetState s) := by
  have hread : readWire (s.trace ++ [.pin .rst false, .delay 200, .pin .rst true]) =
      { readWire s.trace with ctrl := none } := readWire_append ..
  refine ⟨h.atRest, ?_, fun hi => ?_, fun hi => ?_, fun _ => .inr ⟨?_, rfl⟩⟩
  · exact hread ▸ h.windows
  · exact hread ▸ h.map hi
  · exact hread ▸ h.bool hi
  · exact congrArg Wire.ctrl hread

/-- The events of `setup` before its frames tell a reader with no window open nothing (R200). -/
theorem Wire.foldl_read_openingEvents (p : Params) {w : Wire} (hw : w.window = none) :
    (openingEvents p).foldl Wire.read w = w := by
  cases hp : p.hasRst <;> simp [openingEvents, hp, Wire.read, hw]

/-- `setup` sends a frame of each kind with the value it stores (R200), so what the reader showed before does not matter. -/
theorem AgreesOnReturn.setupState {s : State} (h : AgreesOnReturn s) (n : Word) : AgreesOnReturn (setupState n s) := by
  obtain ⟨hr, ⟨hw, hstray⟩, -⟩ := (wireAgrees_iff _).mp h
  have hcc := (clampChips_legal n).1
  have hread : readWire (Machine.setupState n s).trace = (((readWire s.trace).recorded .map
      (frameBytes (clampChips n).toNat .map (allMask (clampChips n)))).recorded .bool
      (frameBytes (clampChips n).toNat .bool (andAll s.params (clampChips n)))).recorded .ctrl
      (frameBytes (clampChips n).toNat .ctrl 0) := by
    simp only [Machine.setupState, readWire_append, List.foldl_append, Wire.foldl_read_openingEvents _ hw,
      Wire.foldl_read_frame _ _ _ hcc, Wire.recorded_window, show (readWire s.trace).window = none from hw]
  refine (wireAgrees_iff _).mpr ⟨hr, ?_, fun _ k => ?_⟩ <;> simp only [hread]
  · simpa using ⟨hw, hstray⟩
  · cases k
    · exact Wire.recorded_shows ..
    · exact Wire.recorded_shows_other (by decide) _ (Wire.recorded_shows_other (by decide) _ (Wire.recorded_shows ..))
    · exact Wire.recorded_shows_other (by decide) _ (Wire.recorded_shows ..)

/-- Every operation run in such a state leads to a state that agrees. -/
theorem AgreesOnReturn.effect {s t : State} {i : Instr} (h : AgreesOnReturn s) (hcc : 1 ≤ s.cc.toNat)
    (he : Effect s i t) : WireAgrees t := by
  cases he with
  | fault _ code => exact h.fault code
  | ignored | noLine => exact h.finish none
  | write _ k f =>
    rw [update_whole k f h.wholeFrame]
    exact (h.writtenState hcc k _).finish none
  | answer _ v => exact h.finish (some v)
  | setup n => exact (h.setupState n).finish none
  | pulse => exact h.resetState.finish none

/-- Under WHOLE_OP no operation is ever in progress to be preempted or advanced, so a command runs in the idle block. -/
theorem WireAgrees.granted {s u : State} {p : Port} {w : Command} (h : WireAgrees s) (hu : GrantedFrom s p w u) :
    AgreesOnReturn u ∧ u.cc = s.cc := by
  rcases hu with ⟨rfl, -⟩ | ⟨-, -, hp⟩
  · cases p <;> exact ⟨⟨⟨rfl, h.atRest.2⟩, h.windows, h.map, h.bool, h.ctrl⟩, rfl⟩
  · rw [atPreemptionPoint, h.atRest.1] at hp
    cases hp

/-- Settles O5: a command runs in the idle block, and every effect hands back a state that agrees. -/
theorem everyStepKeepsWireAgreement : Obligations.EveryStepKeepsWireAgreement := by
  intro s t hI hA h
  refine step_cases_on (fun s t => 1 ≤ s.cc.toNat → WireAgrees s → WireAgrees t) ?_ (fun _ _ => id) ?_ ?_ h
    hI.chips.1 hA
  · exact fun s t _ _ _ _ _ _ hP hcc h => hP hcc ⟨h.atRest, h.windows, h.map, h.bool, h.ctrl⟩
  · intro s p w u hu
    refine ⟨fun _ h => (h.granted hu).1.fault _, fun i t he hcc h => ?_⟩
    obtain ⟨hA, hu⟩ := h.granted hu
    exact hA.effect (hu ▸ hcc) he
  · intro s p ho _ h
    cases ho.symm.trans h.atRest.1

end Sys2Proof.Machine
end

section
namespace Sys2Proof.Machine

/-! Which action a step is (R75, R81, R84, R230). -/

/-- MAIN's caller presents nothing when it has nothing to present or something of its own is outstanding. -/
theorem presentMain_eq_self {s : State} (h : s.inMain = [] ∨ s.pendMain ≠ none ∨ s.owner = some .main) :
    presentMain s = s := by
  unfold presentMain
  split
  · rfl
  · rename_i w rest hin
    rw [if_neg]
    rintro ⟨hp, ho, -⟩
    rcases h with h | h | h
    · exact nomatch hin.symm.trans h
    · exact h hp
    · exact ho h

/-- IRQ's caller presents nothing when it has nothing to present or something of its own is outstanding. -/
theorem presentIrq_eq_self {s : State} (h : s.inIrq = [] ∨ s.pendIrq ≠ none) : presentIrq s = s := by
  unfold presentIrq
  split
  · rfl
  · rename_i w rest hin
    rw [if_neg]
    rintro ⟨hp, -⟩
    rcases h with h | h
    · exact nomatch hin.symm.trans h
    · exact h hp

theorem present_eq_self {s : State} (hm : s.inMain = [] ∨ s.pendMain ≠ none ∨ s.owner = some .main)
    (hq : s.inIrq = [] ∨ s.pendIrq ≠ none) : present s = s := by
  rw [present, presentMain_eq_self hm, presentIrq_eq_self hq]

/-- A step in which nothing is presented and the arbiter has no choice. -/
theorem step_of_uncontested {s : State} (hp : present s = s) (hc : contested s = false) :
    step s = stepWith false s := by
  simp [step, act, hp, hc]

/-- A step in which nothing is presented and the arbiter has a choice: the schedule's next entry, or a free value. -/
theorem step_of_contested {s : State} (hp : present s = s) (hc : contested s = true) :
    (∀ b rest, s.sched = b :: rest → step s = stepWith b { s with sched := rest }) ∧
      (s.sched = [] → step s = stepWith (Config.freeChoice s.drawn) { s with drawn := s.drawn + 1 }) := by
  refine ⟨fun b rest h => ?_, fun h => ?_⟩ <;> simp [step, act, hp, hc, choice, chosen, h]

/-- Starting a pending command: its port is granted the block and the word is run (R81, R230). -/
theorem start_of_pending {p : Port} {w : Command} {s : State} (h : s.pending p = some w) :
    start p s = runCommand w (grant p w s) := by
  rw [start, h]

/-- At idle MAIN's command starts when IRQ has none, or waits (R81). -/
theorem stepWith_idle_main {b : Bool} {m : Command} {s : State} (ho : s.owner = none) (hm : s.pendMain = some m)
    (hq : s.pendIrq = none ∨ b = false) : stepWith b s = runCommand m (grant .main m s) := by
  rw [← start_of_pending (p := .main) hm]
  rcases hq with hq | rfl <;> simp [stepWith, *]

/-- At idle IRQ's command starts when MAIN has none, or waits (R81). -/
theorem stepWith_idle_irq {b : Bool} {q : Command} {s : State} (ho : s.owner = none) (hq : s.pendIrq = some q)
    (hm : s.pendMain = none ∨ b = true) : stepWith b s = runCommand q (grant .irq q s) := by
  rw [← start_of_pending (p := .irq) hq]
  rcases hm with hm | rfl <;> simp [stepWith, *]

/-- The only command that can start does (R81). -/
theorem OnlyPending.step {p : Port} {w : Command} {s : State} (h : OnlyPending p w s) :
    step s = runCommand w (grant p w s) := by
  obtain ⟨ho, hw, hother⟩ := h
  cases p
  case main =>
    obtain ⟨hq, hin⟩ := hother
    have hm : s.pendMain = some w := hw
    rw [step_of_uncontested (present_eq_self (.inr (.inl (by simp [hm]))) (.inl hin)) (by simp [contested, hq]),
      stepWith_idle_main ho hm (.inl hq)]
  case irq =>
    obtain ⟨hm, hin⟩ := hother
    have hq : s.pendIrq = some w := hw
    rw [step_of_uncontested (present_eq_self (.inl hin) (.inr (by simp [hq]))) (by simp [contested, ho, hm]),
      stepWith_idle_irq ho hq (.inl hm)]

theorem runCommand_legal {w : Command} {i : Instr} (h : decode w = .legal i) (s : State) :
    runCommand w s = exec i s := by
  rw [runCommand, h]

/-- Settles O12: the command starts, and its word decodes to the operation. -/
theorem stepRunsTheDecodedInstruction : Obligations.StepRunsTheDecodedInstruction := by
  intro s w i hi
  constructor <;> intro h
  · exact h.step.trans (runCommand_legal hi _)
  · exact h.step.trans (runCommand_legal hi _)

/-- Settles O14: both ports pending is a contest, and the choice names the port that starts. -/
theorem eitherPendingPortMayStartFirst : Obligations.EitherPendingPortMayStartFirst := by
  intro s m q ho hm hq
  have hp : present s = s := present_eq_self (.inr (.inl (by simp [hm]))) (.inr (by simp [hq]))
  have hc : contested s = true := by simp [contested, ho, hm, hq]
  obtain ⟨hsched, hfree⟩ := step_of_contested hp hc
  refine ⟨fun rest h => ?_, fun rest h => ?_, fun h => ?_⟩
  · exact (hsched _ _ h).trans (stepWith_idle_main ho hm (.inr rfl))
  · exact (hsched _ _ h).trans (stepWith_idle_irq ho hq (.inr rfl))
  · rw [hfree h]
    cases Config.freeChoice s.drawn
    · exact .inl (stepWith_idle_main ho hm (.inr rfl))
    · exact .inr (stepWith_idle_irq ho hq (.inr rfl))

/-- Settles O55: a preemption point with an IRQ command pending is a contest. -/
theorem irqMayStartAtEveryPreemptionPoint : Obligations.IrqMayStartAtEveryPreemptionPoint := by
  intro s ho ha hq
  have hc : contested s = true := by
    simp [contested, atPreemptionPoint, ho, ha, Option.isSome_iff_ne_none, hq]
  obtain ⟨hsched, hfree⟩ := step_of_contested (present_eq_self (.inr (.inr ho)) (.inr hq)) hc
  exact ⟨hsched, fun h => ⟨_, hfree h⟩⟩

end Sys2Proof.Machine
end

section
namespace Sys2Proof.Machine

/-! An operation that holds the arbiter is complete in the step that starts it (R75, R83, R85, R86). -/

/-- What running a command for port p did, in the terms of Safety.lean. Only MAIN has lifecycle operations (R223). -/
inductive Ran (p : Port) (s t : State) : Prop where
  | wrote (k : Kind) (v : Word) : Wrote p k v s t → Ran p s t
  | silent (v : Option Word) : NothingWritten p s t → AnsweredTo p v s t → Ran p s t
  | lifecycle (pos : SerPos) (k : Kind) (v : Word) : p = .main → AnsweredTo p none s t → HandedBack p pos k v s t →
      Ran p s t

theorem OnlyAnswered.ran {p : Port} {v : Option Word} {s t : State} (h : OnlyAnswered p v s t) : Ran p s t :=
  have ⟨hn, _, ha⟩ := h
  .silent v hn ha

theorem Faulted.ran {p : Port} {code : FaultCode} {s t : State} (h : Faulted p code s t) : Ran p s t :=
  have ⟨hn, ha, _⟩ := h
  .silent none hn ha

theorem Effect.ran {p : Port} {s t : State} {i : Instr} (h : Effect s i t) (hp : s.requester = p) : Ran p s t := by
  cases h with
  | fault _ code => exact (raiseFault_faulted code hp).ran
  | ignored | noLine | answer => exact (finish_onlyAnswered _ hp).ran
  | write _ k f => exact .wrote k _ (update_wrote k f hp)
  | setup n hm =>
    obtain ⟨⟨-, -, -, -, -, -, -, hb⟩, -, ha⟩ := finish_onlyAnswered (s := setupState n s) none hp
    exact .lifecycle _ _ _ (hp.symm.trans hm) ha hb
  | pulse _ hm =>
    obtain ⟨⟨-, -, -, -, -, -, -, hb⟩, -, ha⟩ := finish_onlyAnswered (s := resetState s) none hp
    exact .lifecycle _ _ _ (hp.symm.trans hm) ha hb

theorem runCommand_ran {p : Port} {s : State} (w : Command) (hp : s.requester = p) :
    Gives (runCommand w s) (Ran p s) := by
  obtain ⟨t, ht, rfl | ⟨i, -, hi⟩⟩ := runCommand_effect w s
  · exact ⟨_, ht, (raiseFault_faulted _ hp).ran⟩
  · exact ⟨_, ht, hi.ran hp⟩

/-- An operation that holds the arbiter answers its port and hands the block back (R83, R85). -/
theorem Ran.completed {p : Port} {s t : State} (h : Ran p s t) (hw : s.params.atomicScope = .wholeOp ∨ p = .irq) :
    (∃ v, AnsweredTo p v s t) ∧ ∃ pos k v, HandedBack p pos k v s t := by
  cases h with
  | wrote k v h =>
    obtain ⟨-, -, -, -, -, -, -, h⟩ := h
    obtain ⟨-, -, ha, hb⟩ := (if_pos hw ▸ h :)
    exact ⟨⟨_, ha⟩, _, _, _, hb⟩
  | silent v hn ha =>
    obtain ⟨-, -, -, -, -, -, -, hb⟩ := hn
    exact ⟨⟨_, ha⟩, _, _, _, hb⟩
  | lifecycle pos k v _ ha hb => exact ⟨⟨_, ha⟩, _, _, _, hb⟩

/-- An operation that interrupted nothing leaves the block idle. -/
theorem HandedBack.idle {p : Port} {pos : SerPos} {k : Kind} {v : Word} {s t : State} (h : HandedBack p pos k v s t)
    (hm : s.mainCtx = none) : t.owner = none ∧ t.mainCtx = none := by
  unfold HandedBack at h
  rw [hm] at h
  cases p <;> exact ⟨h.1, h.2.1⟩

/-! At idle. -/

/-- At idle an action starts a pending command, or nothing is pending and the block rests (R81, log entry 6). -/
theorem stepWith_idle (b : Bool) {s : State} (ho : s.owner = none) :
    (s.pendMain = none ∧ s.pendIrq = none ∧ stepWith b s = .next s) ∨
      ∃ p w, stepWith b s = runCommand w (grant p w s) := by
  cases hm : s.pendMain with
  | none =>
    cases hq : s.pendIrq with
    | none => exact .inl ⟨rfl, rfl, by simp [stepWith, start, State.pending, ho, hm, hq]⟩
    | some q => exact .inr ⟨.irq, q, stepWith_idle_irq ho hq (.inl hm)⟩
  | some m =>
    cases hq : s.pendIrq with
    | none => exact .inr ⟨.main, m, stepWith_idle_main ho hm (.inl hq)⟩
    | some q =>
      cases b
      · exact .inr ⟨.main, m, stepWith_idle_main ho hm (.inr rfl)⟩
      · exact .inr ⟨.irq, q, stepWith_idle_irq ho hq (.inr rfl)⟩

/-- MAIN's caller, with nothing of its own outstanding, presents what it has (log entry 3). -/
theorem pendMain_presentMain_eq_none {s : State} (ho : s.owner = none) (hc : s.mainCtx = none)
    (h : (presentMain s).pendMain = none) : s.pendMain = none ∧ s.inMain = [] := by
  unfold presentMain at h
  split at h
  · exact ⟨h, ‹_›⟩
  · split at h
    · cases h
    · rename_i hn
      exact absurd ⟨h, by simp [ho], hc⟩ hn

/-- IRQ's caller, with nothing of its own outstanding, presents what it has (log entry 3). -/
theorem pendIrq_presentIrq_eq_none {s : State} (ho : s.owner = none) (h : (presentIrq s).pendIrq = none) :
    s.pendIrq = none ∧ s.inIrq = [] := by
  unfold presentIrq at h
  split at h
  · exact ⟨h, ‹_›⟩
  · split at h
    · cases h
    · rename_i hn
      exact absurd ⟨h, by simp [ho]⟩ hn

/-- MAIN's caller presenting touches nothing of IRQ's. -/
theorem presentMain_keeps_irq (s : State) :
    (presentMain s).pendIrq = s.pendIrq ∧ (presentMain s).inIrq = s.inIrq ∧ (presentMain s).owner = s.owner := by
  unfold presentMain
  split
  · exact ⟨rfl, rfl, rfl⟩
  · split <;> exact ⟨rfl, rfl, rfl⟩

theorem presentIrq_pendMain (s : State) : (presentIrq s).pendMain = s.pendMain := by
  unfold presentIrq
  split
  · rfl
  · split <;> rfl

/-- At idle nothing is pending after the callers presented only when nothing was pending or still to be presented. -/
theorem nothing_waits_of_present {s : State} (ho : s.owner = none) (hc : s.mainCtx = none)
    (hm : (present s).pendMain = none) (hq : (present s).pendIrq = none) :
    s.pendMain = none ∧ s.pendIrq = none ∧ s.inMain = [] ∧ s.inIrq = [] := by
  obtain ⟨hpend, hin, hown⟩ := presentMain_keeps_irq s
  obtain ⟨hpm, him⟩ := pendMain_presentMain_eq_none ho hc ((presentIrq_pendMain _).symm.trans hm)
  obtain ⟨hpq, hiq⟩ := pendIrq_presentIrq_eq_none (hown.trans ho) hq
  exact ⟨hpm, hpend ▸ hpq, him, hin ▸ hiq⟩

/-- A step is an action of a state with what was presented pending; presenting and choosing write nothing else that
an operation reads. -/
theorem step_eq_stepWith (s : State) : ∃ b u, step s = stepWith b u ∧
    (u.pendMain = (present s).pendMain ∧ u.pendIrq = (present s).pendIrq) ∧
    u.params = s.params ∧ u.owner = s.owner ∧ u.mainCtx = s.mainCtx ∧ u.answers = s.answers := by
  have hk := present_keeps s
  rcases step_stepWith s with ⟨h, -⟩ | ⟨h, -⟩ <;> refine ⟨_, _, h, ?_⟩
  · rw [chosen_keeps]
    refine ⟨⟨rfl, rfl⟩, ?_⟩
    rw [hk]
    exact ⟨rfl, rfl, rfl, rfl⟩
  · refine ⟨⟨rfl, rfl⟩, ?_⟩
    rw [hk]
    exact ⟨rfl, rfl, rfl, rfl⟩

/-- A command started at idle under WHOLE_OP leaves the block idle and answers once (R83). -/
theorem runCommand_completes {p : Port} {w : Command} {s : State} (hp : s.params.atomicScope = .wholeOp)
    (hc : s.mainCtx = none) :
    Gives (runCommand w (grant p w s)) fun t =>
      t.owner = none ∧ t.mainCtx = none ∧ ∃ a, t.answers = s.answers ++ [a] := by
  refine (runCommand_ran w (requester_of_owner (grant_owner p w s))).imp fun t hran => ?_
  obtain ⟨⟨v, ha⟩, _, _, _, hb⟩ := hran.completed (.inl (by rwa [grant_params]))
  obtain ⟨hto, htc⟩ := hb.idle (by rwa [grant_mainCtx])
  rw [AnsweredTo, grant_answers] at ha
  exact ⟨hto, htc, _, ha⟩

/-- Settles O16: with something waiting a command runs, and it is complete; otherwise there is no choice and no action. -/
theorem wholeOpStepCompletesOneOperation : Obligations.WholeOpStepCompletesOneOperation := by
  intro s hp ho hc
  by_cases hn : s.pendMain = none ∧ s.pendIrq = none ∧ s.inMain = [] ∧ s.inIrq = []
  · obtain ⟨hm, hq, him, hiq⟩ := hn
    have hstep : step s = stepWith false s :=
      step_of_uncontested (present_eq_self (.inl him) (.inl hiq)) (by simp [contested, hq])
    have hrest : stepWith false s = .next s := by simp [stepWith, start, State.pending, ho, hm, hq]
    exact ⟨s, hstep.trans hrest, ho, hc, by rw [if_pos ⟨hm, hq, him, hiq⟩]⟩
  · obtain ⟨b, u, hstep, ⟨hum, huq⟩, hup, huo, huc, hua⟩ := step_eq_stepWith s
    rw [hstep]
    obtain ⟨hm, hq, -⟩ | ⟨p, w, hrun⟩ := stepWith_idle b (huo.trans ho)
    · exact absurd (nothing_waits_of_present ho hc (hum ▸ hm) (huq ▸ hq)) hn
    · rw [hrun]
      refine (runCommand_completes (hup ▸ hp) (huc.trans hc)).imp fun t ⟨hto, htc, ha⟩ => ⟨hto, htc, ?_⟩
      rw [if_neg hn, ← hua]
      exact ha

/-! At a preemption point. -/

/-- An IRQ command chosen at a preemption point runs with MAIN saved (R86). -/
theorem stepWith_preempt {s : State} {w : Command} (ho : s.owner = some .main)
    (ha : s.params.atomicScope = .shadowOnly) (hq : s.pendIrq = some w) :
    stepWith true s = runCommand w (grant .irq w (suspendMain s)) := by
  rw [← start_of_pending (p := .irq) (s := suspendMain s) hq]
  simp [stepWith, atPreemptionPoint, ho, ha, hq]

/-- An IRQ operation touches no pending command. -/
theorem Ran.irq_pending {s t : State} (h : Ran .irq s t) : t.pendMain = s.pendMain ∧ t.pendIrq = s.pendIrq := by
  cases h with
  | wrote k v h =>
    obtain ⟨-, -, -, -, -, -, ⟨-, hm, hq, -⟩, -⟩ := h
    exact ⟨hm, hq⟩
  | silent v hn =>
    obtain ⟨-, -, -, -, -, -, ⟨-, hm, hq, -⟩, -⟩ := hn
    exact ⟨hm, hq⟩
  | lifecycle pos k v hp => cases hp

/-- What an IRQ operation puts on the wire: nothing, or one frame with the value its register now has (R85). -/
theorem Ran.irq_frame {s t : State} (h : Ran .irq s t) :
    (t.csN = s.csN ∧ t.trace = s.trace) ∨
      ∃ k, t.csN = .drive true ∧ t.trace = s.trace ++ frame s.params s.cc k (t.shadow k) := by
  cases h with
  | wrote k v h =>
    obtain ⟨hk, -, -, -, -, -, -, h⟩ := h
    obtain ⟨ht, hcs, -⟩ := (if_pos (Or.inr rfl) ▸ h :)
    exact .inr ⟨k, hcs, hk ▸ ht⟩
  | silent v hn =>
    obtain ⟨-, -, -, hcs, -, ht, -⟩ := hn
    exact .inl ⟨hcs, ht⟩
  | lifecycle pos k v hp => cases hp

/-- Settles O56: the preempting operation is complete, and `HandedBack` gives MAIN what was saved. -/
theorem preemptionGivesMainItsFrameBack : Obligations.PreemptionGivesMainItsFrameBack := by
  intro s w ho ha hq
  have hstep := stepWith_preempt ho ha hq
  refine ⟨hstep, fun i hi => hstep.trans (runCommand_legal hi _), ?_⟩
  obtain ⟨t, ht, hran⟩ := runCommand_ran w (s := grant .irq w (suspendMain s)) (p := .irq) rfl
  obtain ⟨⟨v, hans⟩, _, _, _, hown, hctx, hser, hkind, hval, hcmd⟩ := hran.completed (.inr rfl)
  obtain ⟨hpm, hpi⟩ := hran.irq_pending
  exact ⟨t, hstep.trans ht, hown, hctx, hser, hkind, hval, hcmd, hpi, hpm, ⟨v, hans⟩, hran.irq_frame⟩

end Sys2Proof.Machine
end

section
namespace Sys2Proof.Machine

/-! The events of a frame (R66). -/

/-- Settles O52: `ChainWrite` in closed form is `frame`, which is written out for each listed chip count. -/
theorem frameIsExactlyTheListedEvents : Obligations.FrameIsExactlyTheListedEvents := by
  intro s k v
  have htrace : (chainWrite k v s).trace = s.trace ++ frame s.params s.cc k v := by rw [chainWrite_eq]
  refine ⟨by decide, htrace, ?_, fun hr hc => ?_, fun hr hc => ?_, fun hr hc => ?_⟩
  · cases hr : s.params.reconfigEachTxn <;> simp [frame, frameLength, frameBytes_length, hr]
  all_goals
    rw [htrace, hc, frame, hr]
    rfl

/-! An operation under another policy (R83, R84). -/

/-- The state with another extent of the arbiter's exclusive section (R7). -/
def State.withScope (a : AtomicScope) (s : State) : State := { s with params := { s.params with atomicScope := a } }

/-- In state `s` the operation `op` is an `Update`, and the same one under every policy, or it completes. -/
def UpdatesOrCompletes (op : State → Answered) (s : State) : Prop :=
  (∃ k f, op s = .next (update k f s) ∧ ∀ a, op (s.withScope a) = .next (update k f (s.withScope a))) ∨
    ∃ v u, op s = .next (finish v u) ∧ u.owner = s.owner

/-- A fault is a completion too (R220). -/
theorem raiseFault_eq_finish (code : FaultCode) (s : State) :
    ∃ v u, raiseFault code s = finish v u ∧ u.owner = s.owner := by
  obtain ⟨fs, hr, -⟩ := recordFault_spec ⟨code, s.requester, s.cmd⟩ s
  exact ⟨none, _, rfl, by rw [hr]⟩

theorem whenInitialized_before_finish {s : State} (op : State → State) (h : s.initialized = false) :
    ∃ v u, whenInitialized op s = .next (finish v u) ∧ u.owner = s.owner := by
  obtain ⟨v, u, hf, ho⟩ := raiseFault_eq_finish .notInitialized s
  exact ⟨v, u, by rw [whenInitialized, h, ← hf]; rfl, ho⟩

/-- Only the operations of groups 1 to 3 update a register; the others complete (R101). -/
theorem exec_completes (i : Instr) (s : State) (hg : ∀ k : Kind, i.opcode.extractLsb' 4 4 ≠ k.group) :
    ∃ v u, exec i s = .next (finish v u) ∧ u.owner = s.owner := by
  obtain ⟨t, ht, h⟩ := exec_effect i s
  rw [ht]
  cases h with
  | fault _ code =>
    obtain ⟨v, u, hf, ho⟩ := raiseFault_eq_finish code s
    exact ⟨v, u, congrArg _ hf, ho⟩
  | write _ k _ _ h => exact absurd h (hg k)
  | ignored | answer | setup | noLine | pulse => exact ⟨_, _, rfl, rfl⟩

/-- A register operation of format M or N whose function does not look at the policy. -/
theorem registerOp_updatesOrCompletes {k : Kind} {f : State → Word → Word} {s : State}
    (hf : ∀ a, f (s.withScope a) = f s) : UpdatesOrCompletes (fun s => registerOp k (f s) s) s := by
  cases hi : s.initialized
  · exact .inr (whenInitialized_before_finish _ hi)
  · exact .inl ⟨k, f s, whenInitialized_after hi, fun a => hf a ▸ whenInitialized_after hi⟩

/-- A register operation of format I whose function does not look at the policy. -/
theorem indexOp_updatesOrCompletes {k : Kind} {i : Word} {f : State → Word → Word} {s : State}
    (hf : ∀ a, f (s.withScope a) = f s) : UpdatesOrCompletes (fun s => indexOp k i (f s) s) s := by
  cases hi : s.initialized
  · exact .inr (whenInitialized_before_finish _ hi)
  · cases hr : inRange s.cc i
    · exact .inr ⟨none, s, (whenInitialized_after hi).trans (by rw [hr]; rfl), rfl⟩
    · refine .inl ⟨k, f s, (whenInitialized_after hi).trans (by rw [hr]; rfl), fun a => ?_⟩
      refine (whenInitialized_after (s := s.withScope a) hi).trans ?_
      rw [hf a, show inRange (s.withScope a).cc i = true from hr]
      rfl

theorem exec_updatesOrCompletes (i : Instr) (s : State) : UpdatesOrCompletes (exec i) s := by
  cases i
  case setChannel | clearChannel | toggleChannel | setExclusiveOn | setExclusiveOff | setChannelMapTrue |
      setChannelMapFalse | setChannelBooleanAnd | setChannelBooleanOr =>
    exact indexOp_updatesOrCompletes fun _ => rfl
  case setChannels | clearChannels | toggleChannels | setAllOn | setAllOff | toggleAll | setMaskExact |
      setMaskComplement | setAllChannelsMapTrue | setAllChannelsMapFalse | setAllChannelsBooleanAnd |
      setAllChannelsBooleanOr =>
    exact registerOp_updatesOrCompletes fun _ => rfl
  case getChannelsOn | getChannelCount | setup | reset =>
    exact .inr (exec_completes _ s fun k => by cases k <;> simp [Instr.opcode, Kind.group])

/-! MAIN's frame under SHADOW_ONLY with nothing else to do (R84). -/

/-- The number of events a frame has still to send at a position (R29, R65). -/
def SerPos.eventsLeft (p : Params) (cc : BitVec 3) : SerPos → Nat
  | .idle => 0
  | .pre => 2 + 2 * cc.toNat + edgeLength p
  | .cslo => 1 + 2 * cc.toNat + edgeLength p
  | .cmd ic => 2 * ic + 2 + edgeLength p
  | .data ic => 2 * ic + 1 + edgeLength p
  | .cshi => edgeLength p
  | .post => 1

theorem eventsLeft_frameStart (p : Params) (cc : BitVec 3) : (frameStart p).eventsLeft p cc = frameLength p cc := by
  cases h : p.reconfigEachTxn <;> simp [frameStart, h, SerPos.eventsLeft, frameLength, edgeLength] <;> omega

theorem eventsLeft_following {p : Params} {cc : BitVec 3} {pos : SerPos} (h : pos ≠ .idle) :
    pos.eventsLeft p cc = (pos.following p cc).eventsLeft p cc + 1 := by
  cases pos with
  | idle => exact absurd rfl h
  | pre | cmd => simp only [SerPos.eventsLeft, SerPos.following]; omega
  | post => rfl
  | cslo =>
    have hz : cc = 0 ↔ cc.toNat = 0 := by rw [← BitVec.toNat_inj]; rfl
    simp only [SerPos.following, hz]
    split <;> simp only [SerPos.eventsLeft] <;> omega
  | data ic =>
    simp only [SerPos.following]
    split <;> simp only [SerPos.eventsLeft] <;> omega
  | cshi => cases h : p.reconfigEachTxn <;> simp [SerPos.following, SerPos.eventsLeft, edgeLength, h]

theorem eventsLeft_eq_zero {p : Params} {cc : BitVec 3} {pos : SerPos} (h : pos.eventsLeft p cc = 0) : pos = .idle := by
  refine Decidable.byContradiction fun hne => ?_
  cases (eventsLeft_following hne).symm.trans h

theorem run_succ {s t : State} (h : step s = .next t) (n : Nat) :
    Host.Core.run core (n + 1) s = Host.Core.run core n t := by
  have hc : core.step s = .next t := h
  simp only [Host.Core.run, hc]

/-- With no IRQ command pending or to come, a step of MAIN's operation in progress goes on with it (R84). -/
theorem step_of_main_alone {s : State} (ho : s.owner = some .main) (hq : s.pendIrq = none) (hin : s.inIrq = []) :
    step s = .next (advance s) := by
  rw [step_of_uncontested (present_eq_self (.inr (.inr ho)) (.inl hin)) (by simp [contested, hq]),
    stepWith_false_of_owner ho]

/-- MAIN's frame, uninterrupted: one step for each event it has still to send, and one to complete the operation. -/
theorem run_frame {s : State} (n : Nat) (ho : s.owner = some .main) (hq : s.pendIrq = none) (hin : s.inIrq = [])
    (hn : s.ser.eventsLeft s.params s.cc = n) :
    Host.Core.run core (n + 1) s = .next (complete (serRun n s)) := by
  rw [run_succ (step_of_main_alone ho hq hin)]
  induction n generalizing s with
  | zero =>
    rw [advance, if_pos (eventsLeft_eq_zero hn)]
    rfl
  | succ n ih =>
    have hs : s.ser ≠ .idle := fun h => by rw [h] at hn; cases hn
    have hnext : (serStep s).ser.eventsLeft (serStep s).params (serStep s).cc = n := by
      rw [serStep_eq hs]
      exact Nat.succ.inj ((eventsLeft_following hs).symm.trans hn)
    obtain ⟨ho', hq', hin'⟩ : (serStep s).owner = some .main ∧ (serStep s).pendIrq = none ∧ (serStep s).inIrq = [] := by
      rw [serStep_eq hs]
      exact ⟨ho, hq, hin⟩
    rw [advance, if_neg hs, run_succ (step_of_main_alone ho' hq' hin')]
    exact ih ho' hq' hin' hnext

/-- A frame begun and performed event by event, or by `ChainWrite` under WHOLE_OP: MAIN's operation completes in the same
state but for the policy. -/
theorem complete_frame_eq_written {s : State} (ho : s.owner = some .main) (k : Kind) (v : Word) :
    complete (serRun (frameLength s.params s.cc) (beginFrame k v (setShadow k v s))) =
      { complete (writtenState k v (s.withScope .wholeOp)) with params := s.params } := by
  have he := eventByEventFrameEqualsChainWrite (setShadow k v s) k v
  rw [setShadow_params, setShadow_cc] at he
  have hi : (writtenState k v (s.withScope .wholeOp)).interrupted = none :=
    interrupted_eq_none_of_owner (by cases k <;> simp [writtenState, State.withScope, ho])
  rw [he, chainWrite_eq, complete, complete, finish_idle none hi, finish_idle none]
  · cases k <;> rfl
  · exact interrupted_eq_none_of_owner (by simp [State.requester, ho])

/-- Settles O54: the operation is the same `Update` under both policies, and `run_frame` performs the frame it began. -/
theorem uninterruptedShadowOnlyEqualsWholeOp : Obligations.UninterruptedShadowOnlyEqualsWholeOp := by
  intro s u w i hp ha hi hu hown
  have hstep : step s = .next u := (hp.step.trans (runCommand_legal hi _)).trans hu
  obtain ⟨-, -, hq, hin⟩ := hp
  obtain ⟨k, f, hx, hall⟩ | ⟨v, x, hx, hxo⟩ := exec_updatesOrCompletes i (grant .main w s)
  · have hw : (grant .main w s).wholeFrame = false := by simp [State.wholeFrame, State.requester, ha]
    obtain rfl : u = _ := Host.Outcome.next.inj (hu.symm.trans (hx.trans (congrArg _ (update_split k f hw))))
    refine ⟨_, (hall .wholeOp).trans (congrArg _ (update_whole k f rfl)), ?_⟩
    calc Host.Core.run core (frameLength s.params s.cc + 1 + 1) s
      _ = _ := run_succ hstep _
      _ = _ := run_frame (frameLength s.params s.cc) hown (by simpa using hq) (by simpa using hin)
        (by simp [eventsLeft_frameStart])
      _ = _ := congrArg _ (complete_frame_eq_written (s := grant .main w s) rfl k _)
  · obtain rfl : u = finish v x := Host.Outcome.next.inj (hu.symm.trans hx)
    rw [finish_idle v (interrupted_eq_none_of_owner (by rw [hxo]; nofun))] at hown
    cases hown

end Sys2Proof.Machine
end

section
namespace Sys2Proof.Machine

open Sys2Proof.Laws.EncodingForm (opcodeField_append operandField_append)

/-! Decoding and encoding (R100 to R106). -/

/-- A word whose fields are an operation's decodes to it (R103). -/
theorem decode_of_fields {w : Command} {i : Instr} (ho : opcodeField w = i.opcode) (hd : operandField w = i.operand) :
    decode w = .legal i := by
  unfold decode
  rw [ho, hd]
  cases i <;> rfl

/-- The opcode column of R103 has no reserved opcode of R105. -/
theorem opcode_wellFormed (i : Instr) : WellFormed.opcode i.opcode = true := by
  cases i <;> rfl

/-- The opcodes R105 leaves between its reserved ranges. -/
theorem ranges_of_wellFormed : ∀ op : Opcode, WellFormed.opcode op = true →
    (0x10 ≤ op.toNat ∧ op.toNat ≤ 0x1C) ∨ (0x20 ≤ op.toNat ∧ op.toNat ≤ 0x21) ∨
      (0x26 ≤ op.toNat ∧ op.toNat ≤ 0x27) ∨ (0x30 ≤ op.toNat ∧ op.toNat ≤ 0x31) ∨
      (0x36 ≤ op.toNat ∧ op.toNat ≤ 0x37) ∨ (0x40 ≤ op.toNat ∧ op.toNat ≤ 0x41) ∨
      (0x50 ≤ op.toNat ∧ op.toNat ≤ 0x51) := by
  decide

/-- What `decode` can answer: the row its opcode names, with the operand field unless the format is N, or `reserved`
(R102 to R105). -/
theorem decode_cases (w : Command) :
    (∃ i, decode w = .legal i ∧ i.opcode = opcodeField w ∧
      i.operand = if i.format = .none then 0 else operandField w) ∨
    (decode w = .reserved (opcodeField w) ∧ WellFormed.opcode (opcodeField w) = false) := by
  unfold decode
  split
  case h_26 =>
    refine .inr ⟨rfl, Bool.eq_false_iff.mpr fun h => ?_⟩
    have hgaps := ranges_of_wellFormed _ h
    simp only [imp_false] at *
    omega
  all_goals exact .inl ⟨_, rfl, (BitVec.eq_of_toNat_eq ‹_›).symm, rfl⟩

/-- An opcode that R105 does not reserve selects its row, whatever the operand (R104). -/
theorem decode_append_of_wellFormed {op : Opcode} (h : WellFormed.opcode op = true) (opd : Word) :
    ∃ i, decode (op ++ opd) = .legal i ∧ i.opcode = op := by
  obtain ⟨i, hi, ho, -⟩ | ⟨-, hr⟩ := decode_cases (op ++ opd)
  · exact ⟨i, hi, ho.trans (opcodeField_append op opd)⟩
  · rw [opcodeField_append, h] at hr
    cases hr

/-- An opcode that R105 reserves selects no row (R104). -/
theorem decode_append_of_reserved {op : Opcode} (h : WellFormed.opcode op = false) (opd : Word) :
    decode (op ++ opd) = .reserved op := by
  obtain ⟨i, -, ho, -⟩ | ⟨hr, -⟩ := decode_cases (op ++ opd)
  · rw [← opcodeField_append op opd, ← ho, opcode_wellFormed] at h
    cases h
  · rw [hr, opcodeField_append]

/-- The two fields make up the word (R100). -/
theorem opcodeField_append_operandField (w : Command) : opcodeField w ++ operandField w = w :=
  BitVec.extractLsb'_append_extractLsb' (w := 8) (len := 32)

/-- The word with its operand field zero (R106). -/
theorem opcodeField_append_zero (w : Command) : opcodeField w ++ (0 : Word) = w &&& 0xFF00000000 :=
  calc opcodeField w ++ (0 : Word)
    _ = (opcodeField w ++ operandField w) &&& (BitVec.allOnes 8 ++ 0#32) := by
      rw [BitVec.and_append, BitVec.and_allOnes, BitVec.and_zero]
      rfl
    _ = w &&& 0xFF00000000 := congrArg (· &&& _) (opcodeField_append_operandField w)

/-- Settles O7: `encode` writes an operation's fields, which `decode` reads back. -/
theorem decodeOfEncodeIsTheInstruction : Obligations.DecodeOfEncodeIsTheInstruction :=
  fun _ => decode_of_fields (opcodeField_append _ _) (operandField_append _ _)

/-- Settles O8: the decoded operation has the word's opcode, and its operand field or 0. -/
theorem encodeOfDecodeIsTheWord : Obligations.EncodeOfDecodeIsTheWord := by
  intro w i h
  obtain ⟨j, hj, ho, hd⟩ | ⟨hr, -⟩ := decode_cases w
  · obtain rfl : i = j := Verdict.legal.inj (h.symm.trans hj)
    rw [encode, ho, hd]
    split
    · exact opcodeField_append_zero w
    · exact opcodeField_append_operandField w
  · rw [hr] at h
    cases h

/-- Settles O9: a word decodes to a row or its opcode is reserved (`decode_cases`), and no row's opcode is. -/
theorem decodingIsTotalAndFollowsTheOpcode : Obligations.DecodingIsTotalAndFollowsTheOpcode := by
  intro op a b
  refine ⟨fun h => ?_, fun h => decode_append_of_reserved h a⟩
  obtain ⟨i, hi, hio⟩ := decode_append_of_wellFormed h a
  obtain ⟨j, hj, hjo⟩ := decode_append_of_wellFormed h b
  exact ⟨i, j, hi, hj, hio, hjo⟩

/-- Settles O10: each printed word is the encoding of its operation. -/
theorem workedEncodingsDecode : Obligations.WorkedEncodingsDecode :=
  ⟨decodeOfEncodeIsTheInstruction (.setChannel 5), decodeOfEncodeIsTheInstruction (.setChannels 0xAABBCC),
    decodeOfEncodeIsTheInstruction (.setup 3), decodeOfEncodeIsTheInstruction .toggleAll⟩

/-- Settles O11: the 21 bytes, by evaluation. -/
theorem wireCommandBytesAreTheTable : Obligations.WireCommandBytesAreTheTable := by
  unfold Obligations.WireCommandBytesAreTheTable
  decide

end Sys2Proof.Machine
end

section
namespace Sys2Proof.Machine

open Sys2Proof.Laws.EncodingForm (opcodeField_append operandField_append)

/-! The three forms of a register rule (R130), each from the operation it is the rule of. -/

/-- An operation of format N is decoded whatever the operand field holds (R102). -/
theorem decode_append_of_format_none {i : Instr} (h : i.format = .none) (opd : Word) :
    decode (i.opcode ++ opd) = .legal i := by
  unfold decode
  rw [opcodeField_append, operandField_append]
  cases i <;> cases h <;> rfl

variable {op : Opcode} {k : Kind}

/-- Format I: the rule of an operation that is `indexOp`, when in range the mask of R13 makes of `f` the value stated. -/
theorem indexRule_of_indexOp {mk : Word → Instr} {f : State → Word → Word → Word} {value : State → Word → Word}
    (hencode : ∀ i, encode (mk i) = op ++ i) (hexec : ∀ i s, exec (mk i) s = indexOp k i (f s i) s)
    (hvalue : ∀ s i, i.toNat < 8 * s.cc.toNat → updated k (f s i) s = value s i) : IndexRule op k mk value := by
  refine ⟨fun opd => hencode opd ▸ decodeOfEncodeIsTheInstruction (mk opd), fun p s i ho => ?_⟩
  have hp := requester_of_owner ho
  rw [hexec]
  refine ⟨indexOp_before k i _ hp, fun hs hi => ?_, fun hs => (indexOp_after k i _ hp hs).2⟩
  rw [← hvalue s i hi]
  exact (indexOp_after k i _ hp hs).1 hi

/-- Formats M and N: an operation that is `registerOp`, when the mask of R13 makes of `f` the value stated. -/
theorem gives_of_registerOp {p : Port} {s : State} {f : Word → Word} {v : Word} (ho : s.owner = some p)
    (hv : updated k f s = v) :
    (s.initialized = false → Gives (registerOp k f s) (Faulted p .notInitialized s)) ∧
      (s.initialized = true → Gives (registerOp k f s) (Wrote p k v s)) := by
  subst hv
  have hp := requester_of_owner ho
  exact ⟨whenInitialized_before hp, registerOp_after k f hp⟩

/-- Format M. -/
theorem maskRule_of_registerOp {mk : Word → Instr} {f : State → Word → Word → Word} {value : State → Word → Word}
    (hencode : ∀ bits, encode (mk bits) = op ++ bits)
    (hexec : ∀ bits s, exec (mk bits) s = registerOp k (f s bits) s)
    (hvalue : ∀ s bits, updated k (f s bits) s = value s bits) : MaskRule op k mk value := by
  refine ⟨fun opd => hencode opd ▸ decodeOfEncodeIsTheInstruction (mk opd), fun p s bits ho => ?_⟩
  rw [hexec]
  exact gives_of_registerOp ho (hvalue s bits)

/-- Format N. -/
theorem plainRule_of_registerOp {i : Instr} {f : State → Word → Word} {value : State → Word}
    (hopcode : i.opcode = op) (hformat : i.format = .none) (hexec : ∀ s, exec i s = registerOp k (f s) s)
    (hvalue : ∀ s, updated k (f s) s = value s) : PlainRule op k i value := by
  refine ⟨hopcode ▸ decode_append_of_format_none hformat, fun p s ho => ?_⟩
  rw [hexec]
  exact gives_of_registerOp ho (hvalue s)

end Sys2Proof.Machine
end

section
namespace Sys2Proof.Machine

/-! The values the Control operations store, against the mask of R13. -/

/-- The bit of a channel of the chain is inside the mask (R140). -/
theorem channelBit_and_allMask {cc : BitVec 3} {i : Word} (h : i.toNat < 8 * cc.toNat) :
    channelBit i &&& allMask cc = channelBit i := by
  apply BitVec.eq_of_getLsbD_eq
  intro j hj
  rw [BitVec.getLsbD_and, getLsbD_channelBit i hj, getLsbD_allMask, channelCount, decide_eq_true hj, Bool.true_and]
  by_cases hji : j = i.toNat
  · rw [hji, decide_eq_true h, Bool.and_true]
  · rw [beq_eq_false_iff_ne.mpr hji, Bool.false_and]

/-- A value cut out of the mask is inside it (R141). -/
theorem allMask_and_and_allMask (cc : BitVec 3) (v : Word) : (allMask cc &&& v) &&& allMask cc = allMask cc &&& v := by
  rw [BitVec.and_comm (allMask cc) v, BitVec.and_assoc, BitVec.and_self]

/-- Inverting every channel of the chain is the complement within it (R139). -/
theorem xor_allMask_and_allMask (cc : BitVec 3) (v : Word) :
    (v ^^^ allMask cc) &&& allMask cc = ~~~v &&& allMask cc := by
  ext j hj
  simp only [BitVec.getElem_and, BitVec.getElem_xor, BitVec.getElem_not]
  cases v[j] <;> cases (allMask cc)[j] <;> rfl

/-- The complement within the chain, twice. -/
theorem not_not_and_allMask (cc : BitVec 3) (v : Word) :
    ~~~(~~~v &&& allMask cc) &&& allMask cc = v &&& allMask cc := by
  ext j hj
  simp only [BitVec.getElem_and, BitVec.getElem_not]
  cases v[j] <;> cases (allMask cc)[j] <;> rfl

/-- Turning `bits` on and then off, with the mask after each (R134, R135). -/
theorem or_and_allMask_and_not (cc : BitVec 3) (v bits : Word) :
    (((v ||| bits) &&& allMask cc) &&& ~~~bits) &&& allMask cc = (v &&& allMask cc) &&& ~~~bits := by
  ext j hj
  simp only [BitVec.getElem_and, BitVec.getElem_or, BitVec.getElem_not]
  cases v[j] <;> cases bits[j] <;> cases (allMask cc)[j] <;> rfl

/-! The thirteen Control register operations (R131 to R143). -/

/-- Settles O24: the value stated is the masked value as it stands. -/
theorem setChannelTurnsOneChannelOn : Obligations.SetChannelTurnsOneChannelOn :=
  indexRule_of_indexOp (fun _ => rfl) (fun _ _ => rfl) fun _ _ _ => rfl

/-- Settles O25: the value stated is the masked value as it stands. -/
theorem clearChannelTurnsOneChannelOff : Obligations.ClearChannelTurnsOneChannelOff :=
  indexRule_of_indexOp (fun _ => rfl) (fun _ _ => rfl) fun _ _ _ => rfl

/-- Settles O26: the value stated is the masked value as it stands. -/
theorem toggleChannelInvertsOneChannel : Obligations.ToggleChannelInvertsOneChannel :=
  indexRule_of_indexOp (fun _ => rfl) (fun _ _ => rfl) fun _ _ _ => rfl

/-- Settles O27: the value stated is the masked value as it stands. -/
theorem setChannelsTurnsTheMaskOn : Obligations.SetChannelsTurnsTheMaskOn :=
  maskRule_of_registerOp (fun _ => rfl) (fun _ _ => rfl) fun _ _ => rfl

/-- Settles O28: the value stated is the masked value as it stands. -/
theorem clearChannelsTurnsTheMaskOff : Obligations.ClearChannelsTurnsTheMaskOff :=
  maskRule_of_registerOp (fun _ => rfl) (fun _ _ => rfl) fun _ _ => rfl

/-- Settles O29: the value stated is the masked value as it stands. -/
theorem toggleChannelsInvertsTheMask : Obligations.ToggleChannelsInvertsTheMask :=
  maskRule_of_registerOp (fun _ => rfl) (fun _ _ => rfl) fun _ _ => rfl

/-- Settles O30: the whole mask is inside itself. -/
theorem setAllOnTurnsTheChainOn : Obligations.SetAllOnTurnsTheChainOn :=
  plainRule_of_registerOp rfl rfl (fun _ => rfl) fun s => BitVec.and_self (x := allMask s.cc)

/-- Settles O31: 0 is inside every mask. -/
theorem setAllOffTurnsTheChainOff : Obligations.SetAllOffTurnsTheChainOff :=
  plainRule_of_registerOp rfl rfl (fun _ => rfl) fun s => BitVec.zero_and (x := allMask s.cc)

/-- Settles O32: the exclusive or with the mask is the complement within it. -/
theorem toggleAllInvertsTheChain : Obligations.ToggleAllInvertsTheChain :=
  plainRule_of_registerOp rfl rfl (fun _ => rfl) fun s => xor_allMask_and_allMask s.cc s.ctrl

/-- Settles O33: in range the mask leaves the channel's bit. -/
theorem setExclusiveOnLeavesOneChannelOn : Obligations.SetExclusiveOnLeavesOneChannelOn :=
  indexRule_of_indexOp (fun _ => rfl) (fun _ _ => rfl) fun _ _ hi => channelBit_and_allMask hi

/-- Settles O34: the mask without the channel's bit is inside the mask. -/
theorem setExclusiveOffLeavesOneChannelOff : Obligations.SetExclusiveOffLeavesOneChannelOff :=
  indexRule_of_indexOp (fun _ => rfl) (fun _ _ => rfl) fun s _ _ => allMask_and_and_allMask s.cc _

/-- Settles O35: the value stated is the masked operand as it stands. -/
theorem setMaskExactReplacesTheShadow : Obligations.SetMaskExactReplacesTheShadow :=
  maskRule_of_registerOp (fun _ => rfl) (fun _ _ => rfl) fun _ _ => rfl

/-- Settles O36: the value stated is the masked complement as it stands. -/
theorem setMaskComplementReplacesWithComplement : Obligations.SetMaskComplementReplacesWithComplement :=
  maskRule_of_registerOp (fun _ => rfl) (fun _ _ => rfl) fun _ _ => rfl

/-! Two Control operations in a row (spec/95_test_vectors.md W4, W5). -/

/-- A register operation of format M or N after `setup`, as the next operation sees it. -/
theorem registerOp_stores {s : State} (k : Kind) (f : Word → Word) (hs : s.initialized = true) :
    Gives (registerOp k f s) fun t => t.shadow k = updated k f s ∧ t.cc = s.cc ∧ t.initialized = true := by
  refine (registerOp_after k f rfl hs).imp fun t ⟨hv, _, hc, hi, _⟩ => ?_
  exact ⟨hv, hc, hi.trans hs⟩

/-- Settles O49: `toggle_all` is the complement within the chain, and a masked shadow survives two of them. -/
theorem toggleAllTwiceRestores : Obligations.ToggleAllTwiceRestores := by
  intro s hs hm
  refine (registerOp_stores .ctrl _ hs).imp fun t ⟨ht, hcc, hi⟩ => ?_
  refine (registerOp_stores .ctrl _ hi).imp fun u ⟨hu, _⟩ => ?_
  have ht' : t.ctrl = ~~~s.ctrl &&& allMask s.cc := ht.trans (xor_allMask_and_allMask s.cc s.ctrl)
  calc u.ctrl
    _ = ~~~t.ctrl &&& allMask t.cc := hu.trans (xor_allMask_and_allMask t.cc t.ctrl)
    _ = s.ctrl &&& allMask s.cc := by rw [ht', hcc, not_not_and_allMask]
    _ = s.ctrl := and_allMask_of_masked hm

/-- Settles O50: of the bits turned on none is left, and the mask takes none of the shadow's own. -/
theorem clearAfterSetRemovesTheMask : Obligations.ClearAfterSetRemovesTheMask := by
  intro s bits hs hm
  refine (registerOp_stores .ctrl _ hs).imp fun t ⟨ht, hcc, hi⟩ => ?_
  refine (registerOp_stores .ctrl _ hi).imp fun u ⟨hu, _⟩ => ?_
  have ht' : t.ctrl = (s.ctrl ||| bits) &&& allMask s.cc := ht
  calc u.ctrl
    _ = (t.ctrl &&& ~~~bits) &&& allMask t.cc := hu
    _ = (s.ctrl &&& allMask s.cc) &&& ~~~bits := by rw [ht', hcc, or_and_allMask_and_not]
    _ = s.ctrl &&& ~~~bits := by rw [and_allMask_of_masked hm]

end Sys2Proof.Machine
end

section
namespace Sys2Proof.Machine

/-! The values the BooleanOp operations store: the bit written at a channel is a set or a clear (R176, R177), and the
whole register is the mask or 0 (R178, R179). -/

/-- Writing the bit `b` at channel i sets that bit when `b` is 1 and clears it when `b` is 0. -/
theorem writeBitAt_eq_ite (b : Bool) (i v : Word) :
    (v &&& ~~~channelBit i) ||| bitAt b i = if b then v ||| channelBit i else v &&& ~~~channelBit i := by
  cases b
  · exact BitVec.or_zero
  · ext j hj
    simp only [bitAt, if_true, BitVec.getElem_or, BitVec.getElem_and, BitVec.getElem_not]
    cases v[j] <;> cases (channelBit i)[j] <;> rfl

/-- The same with the bit `1 - b`: the set and the clear change places. -/
theorem writeBitAt_not_eq_ite (b : Bool) (i v : Word) :
    (v &&& ~~~channelBit i) ||| bitAt (!b) i = if b then v &&& ~~~channelBit i else v ||| channelBit i := by
  rw [writeBitAt_eq_ite]
  cases b <;> rfl

/-- `OR_ALL` is the mask where `AND_ALL` is 0, and 0 where it is the mask (R8). -/
theorem orAll_eq_ite (p : Params) (cc : BitVec 3) : orAll p cc = if p.andBit then 0 else allMask cc := by
  rw [orAll, andAll]
  split
  · exact BitVec.xor_self
  · exact BitVec.xor_zero

/-- `OR_ALL` has no bit outside the chain, as `AND_ALL` has none. -/
theorem masked_orAll (p : Params) (cc : BitVec 3) : Masked cc (orAll p cc) := by
  rw [orAll_eq_ite]
  split
  · exact masked_zero cc
  · exact masked_allMask cc

/-! The InputMap and BooleanOp register operations (R171 to R179). -/

/-- Settles O37: the value stated is the masked value as it stands. -/
theorem setChannelMapTrueMapsOneChannel : Obligations.SetChannelMapTrueMapsOneChannel :=
  indexRule_of_indexOp (fun _ => rfl) (fun _ _ => rfl) fun _ _ _ => rfl

/-- Settles O38: the value stated is the masked value as it stands. -/
theorem setChannelMapFalseUnmapsOneChannel : Obligations.SetChannelMapFalseUnmapsOneChannel :=
  indexRule_of_indexOp (fun _ => rfl) (fun _ _ => rfl) fun _ _ _ => rfl

/-- Settles O39: the whole mask and 0 are both inside the mask. -/
theorem setAllChannelsMapWritesTheWholeMap : Obligations.SetAllChannelsMapWritesTheWholeMap :=
  ⟨plainRule_of_registerOp rfl rfl (fun _ => rfl) fun s => and_allMask_of_masked (masked_allMask s.cc),
    plainRule_of_registerOp rfl rfl (fun _ => rfl) fun s => and_allMask_of_masked (masked_zero s.cc)⟩

/-- Settles O40: writing `AND_BIT` at the channel sets its bit or clears it. -/
theorem setChannelBooleanAndSelectsAnd : Obligations.SetChannelBooleanAndSelectsAnd :=
  indexRule_of_indexOp (fun _ => rfl) (fun _ _ => rfl) fun s i _ =>
    congrArg (· &&& allMask s.cc) (writeBitAt_eq_ite s.params.andBit i s.boolOp)

/-- Settles O41: writing `1 - AND_BIT` at the channel clears its bit or sets it. -/
theorem setChannelBooleanOrSelectsOr : Obligations.SetChannelBooleanOrSelectsOr :=
  indexRule_of_indexOp (fun _ => rfl) (fun _ _ => rfl) fun s i _ =>
    congrArg (· &&& allMask s.cc) (writeBitAt_not_eq_ite s.params.andBit i s.boolOp)

/-- Settles O42: `AND_ALL` and `OR_ALL` are inside the mask. -/
theorem setAllChannelsBooleanWritesTheWholeRegister : Obligations.SetAllChannelsBooleanWritesTheWholeRegister :=
  ⟨plainRule_of_registerOp rfl rfl (fun _ => rfl) fun s => and_allMask_of_masked (masked_andAll s.params s.cc),
    plainRule_of_registerOp rfl rfl (fun _ => rfl) fun s =>
      (and_allMask_of_masked (masked_orAll s.params s.cc)).trans (orAll_eq_ite s.params s.cc)⟩

end Sys2Proof.Machine
end

section
namespace Sys2Proof.Machine

/-! The query operations (R190, R191). -/

/-- The rule of an operation of format N that answers `f` after `setup` and does nothing else. -/
theorem queryRule_of_respond {op : Opcode} {i : Instr} {f : State → Word} (hopcode : i.opcode = op)
    (hformat : i.format = .none) (hexec : ∀ s, exec i s = whenInitialized (fun s => respond (f s) s) s) :
    QueryRule op i f := by
  refine ⟨hopcode ▸ decode_append_of_format_none hformat, fun p s ho => ?_⟩
  have hp := requester_of_owner ho
  rw [hexec]
  exact ⟨whenInitialized_before hp, fun hs => ⟨_, whenInitialized_after hs, finish_onlyAnswered (some (f s)) hp⟩⟩

/-- Settles O44: the operation responds with the Control shadow. -/
theorem getChannelsOnAnswersTheControlShadow : Obligations.GetChannelsOnAnswersTheControlShadow :=
  queryRule_of_respond rfl rfl fun _ => rfl

/-- Settles O45: the operation responds with the channel count, which is `8 * cc` by definition (R8). -/
theorem getChannelCountAnswersEightPerChip : Obligations.GetChannelCountAnswersEightPerChip :=
  queryRule_of_respond rfl rfl fun _ => rfl

end Sys2Proof.Machine
end

section
namespace Sys2Proof.Machine

/-! The lifecycle operations (R200 to R207), and what a query reads after one (R202). -/

/-- The IRQ port may not present a lifecycle operation, in either state of the machine (R223, R224). -/
theorem onMainOnly_irq {s : State} (op : State → Answered) (h : s.owner = some .irq) :
    Gives (onMainOnly op s) (Faulted .irq .portNotPermitted s) :=
  have hr := requester_of_owner h
  ⟨_, if_pos hr, raiseFault_faulted _ hr⟩

/-- The check passes on the MAIN port. -/
theorem onMainOnly_main {s : State} (op : State → Answered) (h : s.requester = .main) : onMainOnly op s = op s :=
  if_neg (by rw [h]; nofun)

/-- The chip count `setup` takes, as a number (R201). -/
theorem clampChips_toNat (n : Word) :
    (clampChips n).toNat = if 1 ≤ n.toNat ∧ n.toNat ≤ 4 then n.toNat else 1 := by
  rw [clampChips, Config.maxChips]
  split
  case isTrue h => rw [BitVec.toNat_ofNat, Nat.mod_eq_of_lt (by omega)]
  case isFalse => rfl

/-- Settles O46: on MAIN `setup` completes `setupState`, which holds the values, the lines and the events listed. -/
theorem setupDrivesAllThreeRegisters : Obligations.SetupDrivesAllThreeRegisters := by
  refine ⟨fun opd => decodeOfEncodeIsTheInstruction (.setup opd), fun s n ho => ?_, fun s n ho => ?_⟩
  · change Gives (execSetup n s) _
    exact onMainOnly_irq _ ho
  · have hr := requester_of_owner ho
    refine ⟨_, execSetup_main n hr, ?_⟩
    obtain ⟨⟨hk, hcc, hinit, hcs, hrst, htrace, hsame, hback⟩, hfaults, hanswer⟩ :=
      finish_onlyAnswered (s := setupState n s) none hr
    rw [complete]
    generalize finish none (setupState n s) = t at *
    have hmap : t.inputMap = allMask t.cc := hcc ▸ hk .map
    have hbool : t.boolOp = andAll s.params t.cc := hcc ▸ hk .bool
    have hevents : t.trace = s.trace ++ openingEvents s.params ++ frame s.params t.cc .map t.inputMap ++
        frame s.params t.cc .bool t.boolOp ++ frame s.params t.cc .ctrl 0 := by
      rw [htrace, hmap, hbool, hcc]
      simp only [setupState, List.append_assoc]
    exact ⟨hcc ▸ clampChips_toNat n, hinit, hmap, hbool, hk .ctrl, hcs, hrst, hevents, hfaults, hanswer, hsame,
      hback⟩

/-- Settles O47: the two checks in the order of R224, then a completion of the state as it is or of `resetState`. -/
theorem resetPulsesTheLineAndZeroesControl : Obligations.ResetPulsesTheLineAndZeroesControl := by
  refine ⟨decode_append_of_format_none (i := .reset) rfl, fun s ho => onMainOnly_irq _ ho, fun s ho => ?_⟩
  have hr := requester_of_owner ho
  have hexec : exec .reset s = whenInitialized _ s := onMainOnly_main _ hr
  rw [hexec]
  refine ⟨whenInitialized_before hr, fun hs hline => ⟨_, whenInitialized_after hs, ?_⟩,
    fun hs hline => ⟨_, whenInitialized_after hs, ?_⟩⟩
  · rw [if_neg (by rw [hline]; nofun)]
    exact finish_onlyAnswered none hr
  · rw [if_pos hline, pulseReset_eq]
    obtain ⟨⟨hk, hcc, hinit, hcs, hrst, htrace, hsame, hback⟩, hfaults, hanswer⟩ :=
      finish_onlyAnswered (s := resetState s) none hr
    exact ⟨hk .ctrl, hk .map, hk .bool, hcc, hinit.trans hs, hcs, hrst, htrace, hfaults, hanswer, hsame, hback⟩

/-- What `get_channels_on` answers to the port that asks next (R190, R77). -/
theorem getChannelsOn_answers {t : State} {v : Word} (p : Port) (hs : t.initialized = true) (hv : t.ctrl = v) :
    Gives (exec .getChannelsOn { t with owner := some p }) (AnsweredTo p (some v) t) := by
  subst hv
  obtain ⟨-, hquery⟩ := getChannelsOnAnswersTheControlShadow
  obtain ⟨-, hafter⟩ := hquery p { t with owner := some p } rfl
  exact (hafter hs).imp fun u ⟨_, _, hanswer⟩ => hanswer

/-- Settles O51: both operations leave the block initialized, with the Control shadow the query answers. -/
theorem queryAfterWriteReadsTheWrite : Obligations.QueryAfterWriteReadsTheWrite := by
  refine fun s p => ⟨fun n ho => ?_, fun i hs hi => ?_⟩
  · obtain ⟨-, -, hsetup⟩ := setupDrivesAllThreeRegisters
    exact (hsetup s n ho).imp fun t ⟨_, hinit, _, _, hctrl, _⟩ => getChannelsOn_answers p hinit hctrl
  · obtain ⟨hwrote, -⟩ := indexOp_after .ctrl i (fun _ => channelBit i) rfl hs
    exact (hwrote hi).imp fun t ⟨hctrl, _, _, hinit, _⟩ =>
      getChannelsOn_answers p (hinit.trans hs) (hctrl.trans (channelBit_and_allMask hi))

end Sys2Proof.Machine
end

section
namespace Sys2Proof.Machine

/-! Nothing stops the machine (R61, R220, R228, R229). -/

/-- Starting a port, with a command pending or with none, answers a next state. -/
theorem start_next (p : Port) (s : State) : ∃ t, start p s = .next t := by
  cases h : s.pending p with
  | none => exact ⟨s, by rw [start, h]⟩
  | some w =>
    obtain ⟨t, ht, -⟩ := runCommand_effect w (grant p w s)
    exact ⟨t, (start_of_pending h).trans ht⟩

/-- An action starts a port or advances the operation in progress. -/
theorem stepWith_next (b : Bool) (s : State) : ∃ t, stepWith b s = .next t := by
  unfold stepWith
  split
  · split
    · exact start_next .irq s
    · exact start_next .main s
  · split
    · exact start_next .irq (suspendMain s)
    · exact ⟨advance s, rfl⟩

/-- Settles O15: `exec_effect` for the operations; a step is an action, and every action answers a next state. -/
theorem everyOperationAnswersNext : Obligations.EveryOperationAnswersNext := by
  refine ⟨fun i s => ?_, fun s => ?_⟩
  · obtain ⟨t, ht, -⟩ := exec_effect i s
    exact ⟨t, ht⟩
  · obtain ⟨b, u, hstep, -⟩ := step_eq_stepWith s
    rw [hstep]
    exact stepWith_next b u

/-! Who raises which fault (R221 to R224). -/

/-- A command word whose opcode R105 reserves decodes to no row (R104). -/
theorem decode_of_reserved {w : Command} (h : WellFormed.command w = false) :
    decode w = .reserved (opcodeField w) := by
  have hd := decode_append_of_reserved (op := opcodeField w) h (operandField w)
  rwa [opcodeField_append_operandField] at hd

theorem runCommand_reserved {p : Port} {s : State} {w : Command} (h : WellFormed.command w = false)
    (hp : s.requester = p) : Gives (runCommand w s) (Faulted p .illegalOpcode s) :=
  ⟨_, by rw [runCommand, decode_of_reserved h], raiseFault_faulted _ hp⟩

/-- Settles O13: whichever port starts the word, it decodes to no operation. -/
theorem reservedOpcodeRaisesIllegalOpcode : Obligations.ReservedOpcodeRaisesIllegalOpcode := by
  intro s p w hw
  have hrun := runCommand_reserved hw (requester_of_owner (grant_owner p w s))
  exact ⟨hrun, fun h => h.step ▸ hrun⟩

/-- Settles O21: the IRQ clauses of the rules of `setup` and `reset` (`onMainOnly_irq` is the check behind both). -/
theorem lifecycleOnIrqPortRaisesPortNotPermitted : Obligations.LifecycleOnIrqPortRaisesPortNotPermitted := by
  obtain ⟨-, hsetup, -⟩ := setupDrivesAllThreeRegisters
  obtain ⟨-, hreset, -⟩ := resetPulsesTheLineAndZeroesControl
  exact fun s ho => ⟨fun n => hsetup s n ho, hreset s ho⟩

/-- The nine operations of format I are `indexOp` at their operand (R130). -/
theorem exec_eq_indexOp {i : Instr} (h : i.format = .index) (s : State) :
    ∃ k f, exec i s = indexOp k i.operand f s := by
  cases i
  case setChannel | clearChannel | toggleChannel | setExclusiveOn | setExclusiveOff | setChannelMapTrue |
      setChannelMapFalse | setChannelBooleanAnd | setChannelBooleanOr => exact ⟨_, _, rfl⟩
  all_goals cases h

/-- Every operation but `setup` is guarded by the `initialized` check, once `reset` has passed the port check. -/
theorem exec_eq_whenInitialized {i : Instr} {s : State} (hsetup : ∀ n, i ≠ .setup n)
    (hreset : i = .reset → s.requester = .main) : ∃ op, exec i s = whenInitialized op s := by
  by_cases hformat : i.format = .index
  · obtain ⟨k, f, hexec⟩ := exec_eq_indexOp hformat s
    exact ⟨_, hexec⟩
  · cases i
    case setup n => exact absurd rfl (hsetup n)
    case reset => exact ⟨_, onMainOnly_main _ (hreset rfl)⟩
    case setChannels | clearChannels | toggleChannels | setAllOn | setAllOff | toggleAll | setMaskExact |
        setMaskComplement | setAllChannelsMapTrue | setAllChannelsMapFalse | setAllChannelsBooleanAnd |
        setAllChannelsBooleanOr | getChannelsOn | getChannelCount => exact ⟨_, rfl⟩
    all_goals exact absurd rfl hformat

/-- Settles O22: the `initialized` check fails. -/
theorem everythingButSetupFaultsBeforeSetup : Obligations.EverythingButSetupFaultsBeforeSetup := by
  intro i p s ho hs hsetup hreset
  have hp := requester_of_owner ho
  have hmain : i = .reset → s.requester = .main := fun hi => by
    cases p
    · exact hp
    · exact absurd ⟨hi, rfl⟩ hreset
  obtain ⟨op, hexec⟩ := exec_eq_whenInitialized hsetup hmain
  rw [hexec]
  exact whenInitialized_before hp hs

/-! The silent policy for an index out of range (R225). -/

/-- Settles O23: an `indexOp` out of range only completes, and before `setup` its first check fails. -/
theorem outOfRangeIndexIsANoOp : Obligations.OutOfRangeIndexIsANoOp := by
  intro i p s ho hformat hrange
  have hp := requester_of_owner ho
  obtain ⟨k, f, hexec⟩ := exec_eq_indexOp hformat s
  rw [hexec]
  refine ⟨fun hs => ?_, indexOp_before k i.operand f hp⟩
  obtain ⟨-, hout⟩ := indexOp_after k i.operand f hp hs
  exact hout hrange

end Sys2Proof.Machine
end

section
namespace Sys2Proof.Machine

/-! The chain observer (R262): the shift registers. -/

/-- Shift bytes in at chip 0, one after another (R262). -/
def shiftAll (bs : List Byte) (chips : List Chip) : List Chip := bs.foldl (fun chips b => shiftIn b chips) chips

theorem shiftAll_cons (b : Byte) (bs : List Byte) (chips : List Chip) :
    shiftAll (b :: bs) chips = shiftAll bs (shiftIn b chips) := rfl

/-- Shifting leaves the device registers alone. -/
@[simp] theorem shiftIn_dev (b : Byte) (chips : List Chip) : (shiftIn b chips).map Chip.dev = chips.map Chip.dev := by
  induction chips generalizing b with
  | nil => rfl
  | cons c rest ih => simp [shiftIn, ih]

@[simp] theorem shiftAll_dev (bs : List Byte) (chips : List Chip) :
    (shiftAll bs chips).map Chip.dev = chips.map Chip.dev := by
  induction bs generalizing chips with
  | nil => rfl
  | cons b bs ih => rw [shiftAll_cons, ih, shiftIn_dev]

/-- The command byte of a shift register `{cmd, data}` (R262). -/
@[simp] theorem extractLsb'_pair_cmd (cmd data : Byte) : BitVec.extractLsb' (n := 16) 8 8 (cmd ++ data) = cmd :=
  BitVec.extractLsb'_append_eq_left

/-- Its data byte. -/
@[simp] theorem extractLsb'_pair_data (cmd data : Byte) : BitVec.extractLsb' (n := 16) 0 8 (cmd ++ data) = data :=
  BitVec.extractLsb'_append_eq_right

/-- Two bytes fill chip 0's shift register, and each chip's old content moves to the next chip whole. -/
theorem shiftIn_shiftIn_sr (hi lo : Byte) (chips : List Chip) :
    (shiftIn lo (shiftIn hi chips)).map Chip.sr = ((hi ++ lo) :: chips.map Chip.sr).take chips.length := by
  induction chips generalizing hi lo with
  | nil => rfl
  | cons c rest ih =>
    have hold : c.sr.extractLsb' 8 8 ++ c.sr.extractLsb' 0 8 = c.sr := BitVec.extractLsb'_append_extractLsb'
    simp [shiftIn, ih, hold]

/-- The pair of bytes a frame sends for chip `j`, as the shift register `{cmd, data}` holds it (R262). -/
def frameWord (k : Kind) (v : Word) (j : Nat) : BitVec 16 := writeCmd k ++ chipByte v j

/-- The bytes of a frame for `n` chips push the pairs of chips `n-1` to 0 in: chip `j`'s pair ends in chip `j` (R52). -/
theorem shiftAll_frameBytes_sr (n : Nat) (k : Kind) (v : Word) (chips : List Chip) :
    (shiftAll (frameBytes n k v) chips).map Chip.sr =
      ((List.range n).map (frameWord k v) ++ chips.map Chip.sr).take chips.length := by
  induction n generalizing chips with
  | zero => exact (List.take_of_length_le (Nat.le_of_eq (List.length_map _))).symm
  | succ n ih =>
    have hlength : (shiftIn (chipByte v n) (shiftIn (writeCmd k) chips)).length = chips.length := by
      simpa using congrArg List.length (shiftIn_shiftIn_sr (writeCmd k) (chipByte v n) chips)
    rw [frameBytes_succ, shiftAll_cons, shiftAll_cons, ih, hlength, shiftIn_shiftIn_sr, List.range_succ]
    simp [List.take_append, List.take_take, frameWord]

/-! What a trace does to the device registers. -/

/-- The device registers of the chain, chip 0 first. -/
def Chain.registers (c : Chain) : List (List Byte) := c.chips.map Chip.dev

theorem Chain.device_eq (c : Chain) (j : Nat) (a : BitVec 3) :
    c.device j a = ((c.registers[j]?).bind fun dev => dev[a.toNat]?).getD 0 := by
  rw [Chain.device, Chain.registers, List.getElem?_map, Option.bind_map]
  rfl

theorem Chain.ofLength_iff (n : Nat) (c : Chain) :
    c.OfLength n ↔ c.registers.length = n ∧ ∀ dev ∈ c.registers, dev.length = 8 := by
  simp [Chain.OfLength, Chain.registers]

/-- A chip that holds a frame's pair sets the addressed register to the pair's data byte (R262). -/
theorem Chip.latch_dev {c : Chip} {k : Kind} {v : Word} {j : Nat} (h : c.sr = frameWord k v j) :
    c.latch.dev = c.dev.set (addr k).toNat (chipByte v j) := by
  have hwrite : (writeCmd k).extractLsb' 6 2 = Selector.write.code := by cases k <;> rfl
  have haddr : (writeCmd k).extractLsb' 0 3 = addr k := by cases k <;> rfl
  simp [Chip.latch, h, frameWord, hwrite, haddr]

/-! One event (R262). -/

/-- Asserting chip-select opens a window and does nothing to the chips. -/
theorem observe_select (icReset : Nat → BitVec 3 → Byte) (c : Chain) :
    observe icReset c (.pin .cs false) = ⟨.drive false, c.chips⟩ := by simp [observe, Config.csActive]

/-- Every chip latches at the end of a window. -/
theorem observe_deselect (icReset : Nat → BitVec 3 → Byte) (chips : List Chip) :
    observe icReset ⟨.drive false, chips⟩ (.pin .cs true) = ⟨.drive true, chips.map Chip.latch⟩ := by
  simp [observe, Config.csActive]

/-- Without a window there is nothing to latch. -/
theorem observe_deselect_again (icReset : Nat → BitVec 3 → Byte) {c : Chain} (hc : c.cs = .drive true) :
    observe icReset c (.pin .cs true) = c := by
  cases c; simp_all [observe, Config.csActive]

theorem observe_xfer_selected (icReset : Nat → BitVec 3 → Byte) {c : Chain} (hc : c.cs = .drive false) (b : Byte) :
    observe icReset c (.xfer b) = { c with chips := shiftIn b c.chips } := if_pos hc

theorem observe_xfer_deselected (icReset : Nat → BitVec 3 → Byte) {c : Chain} (hc : c.cs ≠ .drive false) (b : Byte) :
    observe icReset c (.xfer b) = c := if_neg hc

/-- While chip-select is deasserted, only its assertion and the reset line's do anything. -/
theorem observe_deselected (icReset : Nat → BitVec 3 → Byte) {c : Chain} {e : Event} (hc : c.cs = .drive true)
    (hselect : e ≠ .pin .cs false) (hreset : e ≠ .pin .rst false) : observe icReset c e = c := by
  cases e with
  | xfer b => exact observe_xfer_deselected icReset (by rw [hc]; decide) b
  | pin line level =>
    cases line <;> cases level
    · exact absurd rfl hselect
    · exact observe_deselect_again icReset hc
    · exact absurd rfl hreset
    · rfl
  | _ => rfl

/-- Only a latch and the reset line's assertion write device registers. -/
theorem observe_registers (icReset : Nat → BitVec 3 → Byte) (c : Chain) {e : Event} (hlatch : e ≠ .pin .cs true)
    (hreset : e ≠ .pin .rst false) : (observe icReset c e).registers = c.registers := by
  cases e with
  | xfer b =>
    by_cases hc : c.cs = .drive false
    · rw [observe_xfer_selected icReset hc]
      exact shiftIn_dev b c.chips
    · rw [observe_xfer_deselected icReset hc]
  | pin line level =>
    cases line <;> cases level
    · rw [observe_select]
      rfl
    · exact absurd rfl hlatch
    · exact absurd rfl hreset
    · rfl
  | _ => rfl

/-! A whole trace. -/

theorem observeAll_append (icReset : Nat → BitVec 3 → Byte) (c : Chain) (t u : List Event) :
    observeAll icReset c (t ++ u) = observeAll icReset (observeAll icReset c t) u := List.foldl_append

theorem observeAll_cons (icReset : Nat → BitVec 3 → Byte) (c : Chain) (e : Event) (t : List Event) :
    observeAll icReset c (e :: t) = observeAll icReset (observe icReset c e) t := rfl

/-- Transfers inside a chip-select window are shifted in. -/
theorem observeAll_xfers (icReset : Nat → BitVec 3 → Byte) (bs : List Byte) (chips : List Chip) :
    observeAll icReset ⟨.drive false, chips⟩ (bs.map .xfer) = ⟨.drive false, shiftAll bs chips⟩ := by
  induction bs generalizing chips with
  | nil => rfl
  | cons b bs ih => rw [List.map_cons, observeAll_cons, observe_xfer_selected icReset rfl, ih, shiftAll_cons]

/-- A frame shifts its bytes in, whatever the level of chip-select before it, and then every chip latches. -/
theorem observeAll_frame (icReset : Nat → BitVec 3 → Byte) (c : Chain) (p : Params) (cc : BitVec 3) (k : Kind) (v : Word) :
    observeAll icReset c (frame p cc k v) =
      ⟨.drive true, (shiftAll (frameBytes cc.toNat k v) c.chips).map Chip.latch⟩ := by
  have hbegin (u : Chain) : observeAll icReset u (if p.reconfigEachTxn then [txnBeginEvent] else []) = u := by
    cases p.reconfigEachTxn <;> rfl
  have hend (u : Chain) : observeAll icReset u (if p.reconfigEachTxn then [.txnEnd] else []) = u := by
    cases p.reconfigEachTxn <;> rfl
  simp only [frame, observeAll_append, observeAll_cons, hbegin, observe_select, observeAll_xfers, observe_deselect, hend]

/-- A frame for all chips of the chain writes into each chip's addressed register the byte sent for that chip. -/
theorem observeAll_frame_registers (icReset : Nat → BitVec 3 → Byte) {c : Chain} (p : Params) {cc : BitVec 3} (k : Kind)
    (v : Word) (hc : c.chips.length = cc.toNat) :
    (observeAll icReset c (frame p cc k v)).registers =
      c.registers.mapIdx fun j dev => dev.set (addr k).toNat (chipByte v j) := by
  have hsr := shiftAll_frameBytes_sr cc.toNat k v c.chips
  have hdev := shiftAll_dev (frameBytes cc.toNat k v) c.chips
  rw [observeAll_frame, Chain.registers, Chain.registers, ← hdev]
  generalize shiftAll (frameBytes cc.toNat k v) c.chips = chips at hsr
  refine List.ext_getElem (by simp) fun j hj _ => ?_
  have hword : (chips.map Chip.sr)[j]'(by simpa using hj) = frameWord k v j := by simp [hsr, hc]
  simpa using Chip.latch_dev ((List.getElem_map Chip.sr).symm.trans hword)

/-- Settles O58: in terms of `registers`, by `observeAll_frame_registers`. -/
theorem frameReachesEachChip : Obligations.FrameReachesEachChip := by
  intro icReset c p cc k v hc
  have hregs := observeAll_frame_registers icReset p k v hc.1
  obtain ⟨hlength, hdevs⟩ := (Chain.ofLength_iff _ _).mp hc
  refine ⟨(Chain.ofLength_iff _ _).mpr ⟨?_, fun dev hdev => ?_⟩, by rw [observeAll_frame], fun j hj a => ?_⟩
  · rw [hregs, List.length_mapIdx, hlength]
  · rw [hregs] at hdev
    obtain ⟨i, hi, rfl⟩ := List.mem_mapIdx.mp hdev
    rw [List.length_set]
    exact hdevs _ (List.getElem_mem hi)
  · have hj' : j < c.registers.length := hlength ▸ hj
    have ha : a.toNat < c.registers[j].length := (hdevs _ (List.getElem_mem hj')).symm ▸ a.isLt
    rw [Chain.device_eq, Chain.device_eq, hregs, List.getElem?_mapIdx, List.getElem?_eq_getElem hj']
    by_cases h : a = addr k
    · subst h
      simp [List.getElem?_set_self ha]
    · have hne : (addr k).toNat ≠ a.toNat := fun heq => h (BitVec.eq_of_toNat_eq heq.symm)
      simp [List.getElem?_set_ne hne, h]

/-! A frame cut by another (R256). -/

/-- While chip-select is deasserted, a trace that asserts neither it nor the reset line does nothing (R262). -/
theorem observeAll_deselected (icReset : Nat → BitVec 3 → Byte) {c : Chain} {t : List Event} (hc : c.cs = .drive true)
    (hselect : .pin .cs false ∉ t) (hreset : .pin .rst false ∉ t) : observeAll icReset c t = c := by
  induction t with
  | nil => rfl
  | cons e t ih =>
    obtain ⟨hse, hst⟩ := List.ne_and_not_mem_of_not_mem_cons hselect
    obtain ⟨hre, hrt⟩ := List.ne_and_not_mem_of_not_mem_cons hreset
    rw [observeAll_cons, observe_deselected icReset hc hse.symm hre.symm, ih hst hrt]

/-- A trace that neither deasserts chip-select nor asserts the reset line writes no device register (R262). -/
theorem observeAll_registers (icReset : Nat → BitVec 3 → Byte) (c : Chain) {t : List Event}
    (hlatch : .pin .cs true ∉ t) (hreset : .pin .rst false ∉ t) : (observeAll icReset c t).registers = c.registers := by
  induction t generalizing c with
  | nil => rfl
  | cons e t ih =>
    obtain ⟨hle, hlt⟩ := List.ne_and_not_mem_of_not_mem_cons hlatch
    obtain ⟨hre, hrt⟩ := List.ne_and_not_mem_of_not_mem_cons hreset
    rw [observeAll_cons, ih _ hlt hrt, observe_registers icReset c hle.symm hre.symm]

/-- A frame does not touch the reset line (R66). -/
theorem rst_notMem_frame (p : Params) (cc : BitVec 3) (k : Kind) (v : Word) (level : Bool) :
    .pin .rst level ∉ frame p cc k v := by
  cases h : p.reconfigEachTxn <;> simp [frame, txnBeginEvent, h]

/-- A frame asserts chip-select once (R66). -/
theorem count_select_frame (p : Params) (cc : BitVec 3) (k : Kind) (v : Word) :
    (frame p cc k v).count (.pin .cs false) = 1 := by
  have hxfers (bs : List Byte) : (bs.map Event.xfer).count (.pin .cs false) = 0 := List.count_eq_zero.mpr (by simp)
  cases h : p.reconfigEachTxn <;> simp [frame, txnBeginEvent, h, hxfers]

/-- What is left of a frame after its chip-select assertion does not assert chip-select again. -/
theorem select_notMem_drop_frame {p : Params} {cc : BitVec 3} {k : Kind} {v : Word} {m : Nat}
    (h : .pin .cs false ∈ (frame p cc k v).take m) : .pin .cs false ∉ (frame p cc k v).drop m := by
  have hcount := count_select_frame p cc k v
  rw [← List.take_append_drop m (frame p cc k v), List.count_append] at hcount
  have htaken := List.count_pos_iff.mpr h
  exact List.count_eq_zero.mp (by omega)

/-- Settles O59: MAIN's first events only shift, the IRQ frame overwrites what they shifted in and latches
(`frameReachesEachChip`), and MAIN's remaining events find chip-select deasserted. -/
theorem interruptedFrameIsLostOnTheWire : Obligations.InterruptedFrameIsLostOnTheWire := by
  intro icReset c p cc k k' v v' m hc hselect hlatch
  have hrst := rst_notMem_frame p cc k v false
  have hfirst := observeAll_registers icReset c hlatch fun h => hrst (List.mem_of_mem_take h)
  have hc' := (Chain.ofLength_iff _ _).mpr (hfirst.symm ▸ (Chain.ofLength_iff _ _).mp hc)
  obtain ⟨-, hcs, hdevices⟩ := frameReachesEachChip icReset _ p cc k' v' hc'
  intro c'
  have hrest : c' = observeAll icReset (observeAll icReset c ((frame p cc k v).take m)) (frame p cc k' v') := by
    simp only [c', observeAll_append]
    exact observeAll_deselected icReset hcs (select_notMem_drop_frame hselect) fun h => hrst (List.mem_of_mem_drop h)
  intro j hj a
  rw [hrest, hdevices j hj a, Chain.device_eq _ j a, hfirst, ← Chain.device_eq]

end Sys2Proof.Machine
end
